-- ==== Sys2Proof/Word.lean ====
section
/-! DEFINITION. The words of the block: bytes, 16-bit words and 7-bit bus addresses (00_scope.md R10, R12; 10_state.md R21). -/

namespace Sys2Proof

/-- A byte is 8 bits (R12). -/
abbrev Byte := BitVec 8

/-- A word is 16 bits (R12): an opcode, a parameter, a CRC input, a response word (R10). -/
abbrev Word := BitVec 16

/-- A device address on the bus is 7 bits (R21, R34). -/
abbrev BusAddr := BitVec 7

/-- The largest value of a 16-bit operand (R10, R54). -/
abbrev wordMax : Nat := 0xFFFF

end Sys2Proof
end

