-- ==== Sys2Proof/Machine/CommandMap.lean ====
section
/-! DEFINITION. The device opcode map (30_encoding.md R51): the six opcodes, their frame classes and their responses. -/

namespace Sys2Proof.Machine

/-- `DATA_READY_QUERY` (R51, R75). -/
def opDataReadyQuery : Word := 0xE4B8

/-- `READ_MEASUREMENTS` (R51, R76). -/
def opReadMeasurements : Word := 0xEC05

/-- `START_CONT` (R51, R77). -/
def opStartCont : Word := 0x21B1

/-- `STOP_CONT` (R51, R78). -/
def opStopCont : Word := 0x3F86

/-- `CALIBRATE` (R51, R79; 90_conflicts.md C4). -/
def opCalibrate : Word := 0x362F

/-- `FACTORY_RESET` (R51, R80). -/
def opFactoryReset : Word := 0x3632

/-- The two frame formats of a command (R45, R46). -/
inductive FrameClass where
  | plain
  | param
deriving DecidableEq, Repr

/-- The frame class of a listed opcode; `none` for an opcode outside the six (R51). -/
def frameClass (opcode : Word) : Option FrameClass :=
  if opcode = opDataReadyQuery then some .plain
  else if opcode = opReadMeasurements then some .plain
  else if opcode = opStartCont then some .plain
  else if opcode = opStopCont then some .plain
  else if opcode = opCalibrate then some .param
  else if opcode = opFactoryReset then some .plain
  else none

/-- How many 16-bit operand inputs a device command takes: one for a `PARAM` command, none else (R45, R46). -/
def operandCount (opcode : Word) : Nat :=
  if frameClass opcode = some .param then 1 else 0

/-- How many response words the host reads after a command; `none` where it reads none (R51, R81). -/
def responseWords (opcode : Word) : Option Nat :=
  if opcode = opDataReadyQuery then some 1
  else if opcode = opReadMeasurements then some 6
  else none

end Sys2Proof.Machine
end

