-- ==== Sys2Proof/Transport.lean ====
section
/-! DEFINITION. The transport as the block sees it: the direction of a transaction, what the transport reports, the outcome
of a transaction and the events of the history (00_scope.md R13; 10_state.md R22, R23; 20_memory.md R32). -/

namespace Sys2Proof

/-- The direction a `TransportError` records (R82). -/
inductive Dir where
  | write
  | read
deriving DecidableEq, Repr

/-- Outcome of one write transaction (R13, R22). -/
inductive WriteResult where
  | ok
  | fail
deriving DecidableEq, Repr

/-- Outcome of one read transaction; a failed read delivers no bytes (R13, R22, R32). -/
inductive ReadResult where
  | ok (bytes : List Byte)
  | fail
deriving DecidableEq, Repr

/-- What the transport reports of one write: an error ("bus error / NACK / timeout"), or how many bytes it moved, the
"byte count" of R32. -/
inductive WriteAnswer where
  | error
  | moved (count : Nat)
deriving DecidableEq, Repr, Inhabited

/-- What the transport reports of one read: an error, or the bytes it moved, first received first (R32). -/
inductive ReadAnswer where
  | error
  | moved (bytes : List Byte)
deriving DecidableEq, Repr, Inhabited

/-- The three kinds of event of `hist` (R23). -/
inductive Event where
  /-- One write transaction of `bytes` to `addr`. -/
  | wr (addr : BusAddr) (bytes : List Byte) (result : WriteResult)
  /-- One read transaction of `n` bytes from `addr` with the repeated-start attribute `rs`. -/
  | rd (addr : BusAddr) (n : Nat) (rs : Bool) (result : ReadResult)
  /-- One host `WAIT` (R102). -/
  | wait
deriving DecidableEq, Repr

end Sys2Proof
end

