-- ==== Sys2Proof/Config.lean ====
section
/-! DEFINITION. The configuration fixed at instantiation (10_state.md R19) and the free values of the model. -/

namespace Sys2Proof

/-- How the trailing check byte of a response word is treated (R11). -/
inductive CheckPolicy where
  | lenient
  | strict
deriving DecidableEq, Repr

/-- The four configuration fields (R19), fixed at instantiation. `tCmdDelayUs` is `T_CMD_DELAY` in microseconds; it is only the
label of `WAIT` and no rule reads it (R8; DESIGN CHOICE of the unit, log 8). -/
structure Configuration where
  devAddr : BusAddr
  checkPolicy : CheckPolicy
  maxBlockWords : Nat
  tCmdDelayUs : Nat
deriving DecidableEq, Repr

/-- The legal values of the fields (R19); every `devAddr` and every `checkPolicy` is legal. -/
abbrev Configuration.Legal (c : Configuration) : Prop :=
  6 ≤ c.maxBlockWords ∧ 0 < c.tCmdDelayUs

/-- The instantiation that `State.reset` stands for: `DEV_ADDR` and `CHECK_POLICY` as R6 and R11 give them, the two OPEN fields
at the values 95_test_vectors.md and R8 use. DESIGN CHOICE, unsafe (log 8). -/
def Configuration.standard : Configuration where
  devAddr := 0x62
  checkPolicy := .lenient
  maxBlockWords := 6
  tCmdDelayUs := 1000

/-- FREE VALUE (log 3): the transport's answer to a write, where no answer is given from outside. It may see the history, and no
law constrains it (R22). Arguments: the index of the draw, the history, the address and the frame. -/
opaque Config.oracleWrite : Nat → List Event → BusAddr → List Byte → WriteAnswer

/-- FREE VALUE (log 3): the transport's answer to a read, where no answer is given from outside (R22). Arguments: the index of
the draw, the history, the address, the requested length and the repeated-start attribute. -/
opaque Config.oracleRead : Nat → List Event → BusAddr → Nat → Bool → ReadAnswer

/-- FREE VALUE (log 5): what `crc` holds after an operation has used it (R18: "unspecified"). -/
opaque Config.freeCrc : Nat → Byte

/-- FREE VALUE (log 5): which of the three legal lengths `tx` has after an operation has used it (R18). -/
opaque Config.freeTxLength : Nat → Fin 3

/-- FREE VALUE (log 5): the bytes of `tx` after an operation has used it (R18). -/
opaque Config.freeTxByte : Nat → Nat → Byte

/-- FREE VALUE (log 5): how many groups `rx` holds after an operation has used it (R18). -/
opaque Config.freeRxCount : Nat → Nat

/-- FREE VALUE (log 5): the bytes of `rx` after an operation has used it (R18). -/
opaque Config.freeRxByte : Nat → Nat → Byte

end Sys2Proof
end

