-- ==== Sys2Proof/Machine/Crc.lean ====
section
/-! DEFINITION. The CRC-8 of the Checksum Unit as a function (40_crc.md R59 to R61). -/

namespace Sys2Proof.Machine

/-- `CRC_POLY` (00_scope.md R7). -/
def crcPoly : Byte := 0x31

/-- `CRC_INIT` (00_scope.md R7). -/
def crcInit : Byte := 0xFF

/-- The high byte `v[15:8]` (R26). -/
def hiByte (v : Word) : Byte := v.extractLsb' 8 8

/-- The low byte `v[7:0]` (R26). -/
def loByte (v : Word) : Byte := v.extractLsb' 0 8

/-- `CrcBit` (R61). The 8-bit shift drops bit 8, which is R61's mask after each iteration. -/
def crcBit (c : Byte) : Byte :=
  if c.getLsbD 7 then (c <<< 1) ^^^ crcPoly else c <<< 1

/-- `n` iterations of `CrcBit`. -/
def crcBits : Nat → Byte → Byte
  | 0, c => c
  | n + 1, c => crcBits n (crcBit c)

/-- `CrcByte` (R60): XOR the byte into the register, then 8 iterations. -/
def crcByte (c b : Byte) : Byte := crcBits 8 (c ^^^ b)

/-- `CrcSeq` (R62 item 1): the fold of `CrcByte` over a byte sequence from `CRC_INIT`. -/
def crcSeq (bytes : List Byte) : Byte := bytes.foldl crcByte crcInit

/-- The value `CRC8` computes for a 16-bit input: most-significant byte first, no reflection, no final XOR (R59, R27). -/
def crc8 (v : Word) : Byte := crcByte (crcByte crcInit (hiByte v)) (loByte v)

end Sys2Proof.Machine
end

