-- ==== Sys2Proof/Machine/Operands.lean ====
section
/-! DEFINITION. Operand assembly: wire frames (30_encoding.md R45 to R49), words of a response buffer (42_response_decode.md R71),
check bytes (R73), and what a transport answer makes of a transaction (20_memory.md R32). -/

namespace Sys2Proof.Machine

/-- Format `PLAIN`: the 2-byte frame of an opcode, high byte first (R45). -/
def plainFrame (opcode : Word) : List Byte := [hiByte opcode, loByte opcode]

/-- Format `PARAM`, with the check byte given: the 5-byte frame of an opcode and a parameter (R46). -/
def paramFrame (opcode param : Word) (check : Byte) : List Byte :=
  [hiByte opcode, loByte opcode, hiByte param, loByte param, check]

/-- Format `WORD` as the device is taken to form it under `STRICT`: the word and its `CRC8` (R47, R63, R73). -/
def responseGroup (w : Word) : List Byte := [hiByte w, loByte w, crc8 w]

/-- Byte `i` of a buffer, counted from 0 (R12). The default is never reached at an index below the length. -/
def byteAt (s : List Byte) (i : Nat) : Byte := s.getD i 0

/-- Word `k` of a response buffer, `rx[3k] ++ rx[3k+1]` (R49, R71). -/
def wordAt (rx : List Byte) (k : Nat) : Word := byteAt rx (3 * k) ++ byteAt rx (3 * k + 1)

/-- Check byte `k` of a response buffer, `rx[3k+2]` (R48). -/
def checkAt (rx : List Byte) (k : Nat) : Byte := byteAt rx (3 * k + 2)

/-- `Words(rx, n)` (R71). -/
def words (rx : List Byte) (n : Nat) : List Word := (List.range n).map (wordAt rx)

/-- The length in bytes of a read of `count` words (R31, R50). -/
def readLength (count : Nat) : Nat := 3 * count

/-- A write succeeds when the transport reports no error and no fewer bytes than the frame has (R32, R82). -/
def writeResultOf (n : Nat) : WriteAnswer → WriteResult
  | .error => .fail
  | .moved count => if count < n then .fail else .ok

/-- A read of `n` bytes succeeds when the transport reports no error and no fewer than `n` bytes, and then delivers exactly `n`
(R22, R32). A report of more than `n` bytes delivers the first `n` (DESIGN CHOICE, log 4). -/
def readResultOf (n : Nat) : ReadAnswer → ReadResult
  | .error => .fail
  | .moved bytes => if bytes.length < n then .fail else .ok (bytes.take n)

/-- `CHECK_POLICY` as its one bit: `LENIENT` = 0, `STRICT` = 1 (10_state.md R19). -/
def checkPolicyBit : CheckPolicy → BitVec 1
  | .lenient => 0
  | .strict => 1

/-- The three legal lengths of `tx` (R18). -/
def lengthOfTx : Fin 3 → Nat
  | 0 => 0
  | 1 => 2
  | 2 => 5

/-- FREE VALUE: contents of `tx` that nothing constrains but the legal lengths 0, 2 and 5 (R18; log 5). -/
def freeTx (k : Nat) : List Byte :=
  (List.range (lengthOfTx (Config.freeTxLength k))).map (Config.freeTxByte k)

/-- FREE VALUE: contents of `rx` that nothing constrains but the legal lengths `3 * count` with `count` in `1..maxWords`
(R18; log 5). -/
def freeRx (k maxWords : Nat) : List Byte :=
  (List.range (readLength (1 + Config.freeRxCount k % maxWords))).map (Config.freeRxByte k)

end Sys2Proof.Machine
end

