-- ==== Sys2Proof/Machine/Flags.lean ====
section
/-! DEFINITION. The one flag of the model, `hazard`: the hazard rules of 70_reset_and_hazards.md R103 to R105 over the event
history. The block itself has no status flags (10_state.md R17). -/

namespace Sys2Proof.Machine

/-- Whether an event is a transaction; `Wait` is none (R23). -/
def isTransaction : Event → Bool
  | .wr _ _ _ => true
  | .rd _ _ _ _ => true
  | .wait => false

/-- The latest transaction of a history, `Wait` events ignored (R105). -/
def lastTransaction (h : List Event) : Option Event :=
  h.foldl (fun last e => if isTransaction e then some e else last) none

/-- Whether a frame's opcode, its bytes 0 and 1, is a response-bearing command (R104, R81). -/
def responseBearing (frame : List Byte) : Bool :=
  match frame with
  | hi :: lo :: _ => (responseWords (hi ++ lo)).isSome
  | _ => false

/-- How one event opens or closes an issue-wait-read sequence (R104): a successful response-bearing write opens it, a read closes
it, anything else leaves it. -/
def openAfter (isOpen : Bool) : Event → Bool
  | .wr _ frame .ok => isOpen || responseBearing frame
  | .wr _ _ .fail => isOpen
  | .rd _ _ _ _ => false
  | .wait => isOpen

/-- Whether an issue-wait-read sequence is open at the end of a history (R104; DEDUCED that an interleaved write leaves it open,
log 17). -/
def sequenceOpen (h : List Event) : Bool := h.foldl openAfter false

/-- R103: the history ends in a successful write with no `Wait` after it. -/
def endsInWriteWithoutWait (h : List Event) : Bool :=
  match h.getLast? with
  | some (.wr _ _ .ok) => true
  | _ => false

/-- R105: the latest transaction is not a successful write, or there is none. -/
def noCommandPending (h : List Event) : Bool :=
  match lastTransaction h with
  | some (.wr _ _ .ok) => false
  | _ => true

/-- Whether appending the event `e` to the history `h` breaks an obligation of the host (R103, R104, R105). -/
def breaksObligation (h : List Event) : Event → Bool
  | .wr _ _ _ => sequenceOpen h
  | .rd _ _ _ _ => endsInWriteWithoutWait h || noCommandPending h
  | .wait => false

end Sys2Proof.Machine
end

