-- ==== Sys2Proof/Interface.lean ====
section
/-! DEFINITION. What passes between the host and the block: the request record (30_encoding.md R42), the device commands by
their opcode word (R51), the host's actions (R100, R102), and the outcomes that go back (00_scope.md R12; 60_exceptions.md R82
to R85). -/

namespace Sys2Proof

/-- The request record of R42. `op` is the 3-bit select code; the other fields are separate operand inputs, natural numbers
because R54 refuses a value beyond its range and never truncates it (DEDUCED, log 15). -/
structure Request where
  op : BitVec 3
  opcode : Nat := 0
  param : Nat := 0
  value : Nat := 0
  rs : Nat := 0
  count : Nat := 0
deriving DecidableEq, Repr

/-- The two kinds of encoding an instruction can arrive in: a request record (R42), or a device command named by its 16-bit
opcode word with its operand inputs (R51, R57; DESIGN CHOICE, log 12). -/
inductive Encoded where
  | request (r : Request)
  | command (opcode : Word) (operands : List Nat)
deriving DecidableEq, Repr

/-- What the host can do next: submit an instruction, `WAIT` (R102), or power-cycle the block (R100). -/
inductive HostAction where
  | submit (e : Encoded)
  | wait
  | powerCycle
deriving DecidableEq, Repr

/-- The operand a `Refused(OperandRange(field))` names (R84). -/
inductive OperandField where
  | opcode
  | param
  | value
  | rs
deriving DecidableEq, Repr

/-- Why a request is refused (R84). -/
inductive RefuseReason where
  | reservedOp
  | operandRange (field : OperandField)
  | blockCount
deriving DecidableEq, Repr

/-- The error of a failed operation (R82, R83). -/
inductive OpError where
  | transport (dir : Dir) (n : Nat)
  | checksum (k : Nat)
deriving DecidableEq, Repr

/-- The result a successful operation carries (R44). -/
inductive OpResult where
  | unit
  | byte (b : Byte)
  | word (w : Word)
  | words (ws : List Word)
deriving DecidableEq, Repr

/-- The outcome of an operation: `Ok(v)`, `Err(e)` or `Refused(r)` (R12). -/
inductive OpOutcome where
  | ok (r : OpResult)
  | err (e : OpError)
  | refused (r : RefuseReason)
deriving DecidableEq, Repr

end Sys2Proof
end

