-- ==== Sys2Proof/Syntax.lean ====
section
/-! DEFINITION. The instructions: one constructor for each row of spec/opcode_table.json. -/

namespace Sys2Proof

/-- The five operations (30_encoding.md R43), the three reserved select codes (R53) and the six device commands (R51).
Operands are natural numbers; their ranges are those of R54 (log 15). -/
inductive Instr where
  /-- `CRC8`, R59. -/
  | crc8 (value : Nat)
  /-- `SEND_PLAIN`, R65. -/
  | sendPlain (opcode : Nat)
  /-- `SEND_PARAM`, R66. -/
  | sendParam (opcode param : Nat)
  /-- `READ_WORD`, R69. -/
  | readWord (rs : Nat)
  /-- `READ_BLOCK`, R70. -/
  | readBlock (count : Nat)
  /-- `RESERVED_OP_5`, R53. -/
  | reservedOp5
  /-- `RESERVED_OP_6`, R53. -/
  | reservedOp6
  /-- `RESERVED_OP_7`, R53. -/
  | reservedOp7
  /-- `DATA_READY_QUERY`, R75. -/
  | dataReadyQuery
  /-- `READ_MEASUREMENTS`, R76. -/
  | readMeasurements
  /-- `START_CONT`, R77. -/
  | startCont
  /-- `STOP_CONT`, R78. -/
  | stopCont
  /-- `CALIBRATE`, R79. -/
  | calibrate (param : Nat)
  /-- `FACTORY_RESET`, R80. -/
  | factoryReset
deriving DecidableEq, Repr

end Sys2Proof
end

