-- ==== Sys2Proof/WellFormed.lean ====
section
/-! DEFINITION. Which instructions are well formed: the reserved codes of 30_encoding.md R53 and the operand ranges of R54, in
the order of 60_exceptions.md R87. -/

namespace Sys2Proof

/-- The first check of R87 items 1 and 2 that the instruction does not pass, as the reason it is refused for (R84), or `none`.
The bound of `count` is the configuration's (R9). -/
def Instr.check (c : Configuration) : Instr → Option RefuseReason
  | .crc8 value => if value ≤ wordMax then none else some (.operandRange .value)
  | .sendPlain opcode => if opcode ≤ wordMax then none else some (.operandRange .opcode)
  | .sendParam opcode param =>
    if opcode ≤ wordMax then (if param ≤ wordMax then none else some (.operandRange .param))
    else some (.operandRange .opcode)
  | .readWord rs => if rs ≤ 1 then none else some (.operandRange .rs)
  | .readBlock count => if 1 ≤ count ∧ count ≤ c.maxBlockWords then none else some .blockCount
  | .reservedOp5 => some .reservedOp
  | .reservedOp6 => some .reservedOp
  | .reservedOp7 => some .reservedOp
  | .dataReadyQuery => none
  | .readMeasurements => none
  | .startCont => none
  | .stopCont => none
  | .calibrate param => if param ≤ wordMax then none else some (.operandRange .param)
  | .factoryReset => none

/-- An instruction is well formed when it passes every check of R87 items 1 and 2. -/
abbrev Instr.WellFormed (c : Configuration) (i : Instr) : Prop :=
  i.check c = none

end Sys2Proof
end

