-- ==== Sys2Proof/Decode.lean ====
section
/-! DEFINITION. Decoding and encoding: the request interface (30_encoding.md R42, R43, R53), the device commands by opcode
(R51, R57), and the wire frames of the write operations (R45, R46, R50). -/

namespace Sys2Proof

/-- Why an encoding stands for no instruction. -/
inductive DecodeError where
  /-- The opcode word of a device command is none of the six of R51. -/
  | unlistedOpcode (opcode : Word)
  /-- A listed device command came with a number of operands its frame class does not take (R45, R46). -/
  | operandCount (opcode : Word) (given : Nat)
deriving DecidableEq, Repr

/-- Why a byte sequence is no write frame of the codec. -/
inductive FrameError where
  /-- A write frame has 2 or 5 bytes (R50). -/
  | frameLength (n : Nat)
  /-- Byte 4 of a `PARAM` frame is not the `CRC8` of its parameter (R46). -/
  | checkByte (found expected : Byte)
deriving DecidableEq, Repr

/-- The operation a request record selects, with the operand fields that operation reads; the other fields are ignored
(R42, R43, R44). Every 3-bit code selects a constructor, the reserved ones too (R53). -/
def decodeRequest (r : Request) : Instr :=
  if r.op = 0b000#3 then .crc8 r.value
  else if r.op = 0b001#3 then .sendPlain r.opcode
  else if r.op = 0b010#3 then .sendParam r.opcode r.param
  else if r.op = 0b011#3 then .readWord r.rs
  else if r.op = 0b100#3 then .readBlock r.count
  else if r.op = 0b101#3 then .reservedOp5
  else if r.op = 0b110#3 then .reservedOp6
  else .reservedOp7

/-- A device command that takes no operand, or the error that it was given some. -/
def withoutOperand (opcode : Word) (operands : List Nat) (i : Instr) : Except DecodeError Instr :=
  match operands with
  | [] => .ok i
  | _ :: _ => .error (.operandCount opcode operands.length)

/-- The device command an opcode word names, with its operands (R51). -/
def decodeCommand (opcode : Word) (operands : List Nat) : Except DecodeError Instr :=
  if opcode = Machine.opDataReadyQuery then withoutOperand opcode operands .dataReadyQuery
  else if opcode = Machine.opReadMeasurements then withoutOperand opcode operands .readMeasurements
  else if opcode = Machine.opStartCont then withoutOperand opcode operands .startCont
  else if opcode = Machine.opStopCont then withoutOperand opcode operands .stopCont
  else if opcode = Machine.opCalibrate then
    match operands with
    | [param] => .ok (.calibrate param)
    | _ => .error (.operandCount opcode operands.length)
  else if opcode = Machine.opFactoryReset then withoutOperand opcode operands .factoryReset
  else .error (.unlistedOpcode opcode)

/-- The instruction an encoding stands for, or why it stands for none. -/
def decode : Encoded → Except DecodeError Instr
  | .request r => .ok (decodeRequest r)
  | .command opcode operands => decodeCommand opcode operands

/-- The encoding of an instruction: a request record for the operations and the reserved codes (R43), the opcode word and its
operand for the device commands (R51). Fields an operation does not read are 0. -/
def encode : Instr → Encoded
  | .crc8 value => .request { op := 0b000, value := value }
  | .sendPlain opcode => .request { op := 0b001, opcode := opcode }
  | .sendParam opcode param => .request { op := 0b010, opcode := opcode, param := param }
  | .readWord rs => .request { op := 0b011, rs := rs }
  | .readBlock count => .request { op := 0b100, count := count }
  | .reservedOp5 => .request { op := 0b101 }
  | .reservedOp6 => .request { op := 0b110 }
  | .reservedOp7 => .request { op := 0b111 }
  | .dataReadyQuery => .command Machine.opDataReadyQuery []
  | .readMeasurements => .command Machine.opReadMeasurements []
  | .startCont => .command Machine.opStartCont []
  | .stopCont => .command Machine.opStopCont []
  | .calibrate param => .command Machine.opCalibrate [param]
  | .factoryReset => .command Machine.opFactoryReset []

/-- The instruction a write frame on the bus carries, read from its bytes alone: the two frame lengths are told apart by the
byte count, the opcode is bytes 0 and 1 (R50). A listed opcode in its own frame class gives the device command, any other
opcode the operation that frames it (R55). Total on any bytes (DESIGN CHOICE of the rejections, log 22). -/
def decodeFrame : List Byte → Except FrameError Instr
  | [b0, b1] =>
    match decodeCommand (b0 ++ b1) [] with
    | .ok i => .ok i
    | .error _ => .ok (.sendPlain (b0 ++ b1).toNat)
  | [b0, b1, b2, b3, b4] =>
    if Machine.crc8 (b2 ++ b3) = b4 then
      match decodeCommand (b0 ++ b1) [(b2 ++ b3).toNat] with
      | .ok i => .ok i
      | .error _ => .ok (.sendParam (b0 ++ b1).toNat (b2 ++ b3).toNat)
    else .error (.checkByte b4 (Machine.crc8 (b2 ++ b3)))
  | bytes => .error (.frameLength bytes.length)

/-- The `PLAIN` frame of a 16-bit opcode (R45), or `none` where it is out of range (R54). -/
def plainFrameOf (opcode : Nat) : Option (List Byte) :=
  if opcode ≤ wordMax then some (Machine.plainFrame (BitVec.ofNat 16 opcode)) else none

/-- The `PARAM` frame of a 16-bit opcode and a 16-bit parameter (R46), or `none` where one is out of range (R54). -/
def paramFrameOf (opcode param : Nat) : Option (List Byte) :=
  if opcode ≤ wordMax ∧ param ≤ wordMax then
    some (Machine.paramFrame (BitVec.ofNat 16 opcode) (BitVec.ofNat 16 param) (Machine.crc8 (BitVec.ofNat 16 param)))
  else none

/-- The write frame an instruction puts on the bus (R45, R46, R57), or `none` for an instruction that writes none. -/
def encodeFrame : Instr → Option (List Byte)
  | .crc8 _ => none
  | .sendPlain opcode => plainFrameOf opcode
  | .sendParam opcode param => paramFrameOf opcode param
  | .readWord _ => none
  | .readBlock _ => none
  | .reservedOp5 => none
  | .reservedOp6 => none
  | .reservedOp7 => none
  | .dataReadyQuery => plainFrameOf Machine.opDataReadyQuery.toNat
  | .readMeasurements => plainFrameOf Machine.opReadMeasurements.toNat
  | .startCont => plainFrameOf Machine.opStartCont.toNat
  | .stopCont => plainFrameOf Machine.opStopCont.toNat
  | .calibrate param => paramFrameOf Machine.opCalibrate.toNat param
  | .factoryReset => plainFrameOf Machine.opFactoryReset.toNat

/-- The encoding whose bits are `w`, numbered as spec/opcode_table.json numbers them. A row of format `REQ` is one byte whose
bits 2 to 0 are `op` (the table's mask is 0x7; the bits above are no part of `op`: DESIGN CHOICE, log 13), with operand inputs
of zeros. Any longer row is a device command: its first 16-bit word is the opcode, and the words after it are the operands. -/
def tableEncoding (nbits w : Nat) : Encoded :=
  if nbits < 16 then .request { op := BitVec.ofNat 3 w }
  else
    .command (BitVec.ofNat 16 w)
      ((List.range (Machine.operandCount (BitVec.ofNat 16 w))).map fun k => (w >>> (16 * (k + 1))) % 65536)

/-- The instruction the decoder reads from an instruction whose bits are `w`, numbered as spec/opcode_table.json numbers them. -/
def decodeTableWord (nbits w : Nat) : Option Instr :=
  match decode (tableEncoding nbits w) with
  | .ok i => some i
  | .error _ => none

end Sys2Proof
end

