-- ==== Sys2Proof/Machine/State.lean ====
section
/-! DEFINITION. The state of the block (10_state.md R18, R19, R23 to R25), the model's own input lists and output record, and the
state after reset (70_reset_and_hazards.md R99). -/

namespace Sys2Proof.Machine

/-- The block has no fault: it has no trap mechanism (60_exceptions.md R88), every operation ends in an outcome (R87) and the
model has no hang of its own (70_reset_and_hazards.md R110). No constructor, so nothing raises one; that is safe. -/
inductive Fault
deriving DecidableEq, Repr

/-- Why a step has no meaning. -/
inductive Refusal where
  /-- Raised by `exec` for an instruction without a meaning; no arm raises it. Safe: nothing is claimed of such a step. -/
  | notModelled (mnemonic : String)
  /-- Raised by `step` when the host's next action is a device command that is no row of the opcode table (30_encoding.md R51).
  Safe: the machine stops, and nothing is claimed of the hardware (log 14). -/
  | undecodable (why : DecodeError)
deriving DecidableEq, Repr

/-- Everything the spec gives the block (R25), then the model's own fields. -/
structure State where
  /-- The CRC register (R18). -/
  crc : Byte
  /-- The transmit buffer, first byte sent first (R18). -/
  tx : List Byte
  /-- The receive buffer, first byte received first (R18). -/
  rx : List Byte
  /-- The configuration, fixed at instantiation (R19). -/
  config : Configuration
  /-- The event history, oldest event first (R23). -/
  hist : List Event
  /-- The sticky hazard bit (R24). -/
  hazard : Bool
  /-- MODEL'S OWN: the host's actions still to be performed, next one first (log 1). -/
  pending : List HostAction
  /-- MODEL'S OWN: the transport's coming answers to writes, next one first (log 3). -/
  writeAnswers : List WriteAnswer
  /-- MODEL'S OWN: the transport's coming answers to reads, next one first (log 3). -/
  readAnswers : List ReadAnswer
  /-- MODEL'S OWN: the outcomes delivered to the host, oldest first (log 10). -/
  outcomes : List OpOutcome
  /-- MODEL'S OWN: the index of the next free value (log 24). -/
  fresh : Nat
deriving DecidableEq, Repr

/-- The reset state of a block instantiated with configuration `c` (R99): history empty, `hazard = 0`, configuration as
instantiated. The datapath registers, unspecified at reset, hold the values log 7 names (DESIGN CHOICE, unsafe). -/
def State.resetWith (c : Configuration) : State where
  crc := 0
  tx := []
  rx := [0, 0, 0]
  config := c
  hist := []
  hazard := false
  pending := []
  writeAnswers := []
  readAnswers := []
  outcomes := []
  fresh := 0

/-- The machine right after reset, for the standard instantiation (R25, R99; log 8). -/
def State.reset : State := State.resetWith Configuration.standard

end Sys2Proof.Machine
end

