-- ==== Sys2Proof/Machine/Ops.lean ====
section
/-! DEFINITION. The operations the meanings share: the CRC register, the buffers, the bus primitives `BusWrite` and `BusRead`
(00_scope.md R13), the response check (42_response_decode.md R72, R73), and the delivery of an outcome, an error or a refusal to
the host (60_exceptions.md R84, R88). -/

namespace Sys2Proof.Machine

/-- Loads the CRC register (R59: `crc <- 0xFF`). -/
def State.loadCrc (s : State) (c : Byte) : State := { s with crc := c }

/-- Absorbs one byte into the CRC register (R60). -/
def State.absorb (s : State) (b : Byte) : State := { s with crc := crcByte s.crc b }

/-- Runs the Checksum Unit on a word; afterwards `crc` holds `CRC8(v)` (R59, R27). -/
def State.runCrc (s : State) (v : Word) : State :=
  ((s.loadCrc crcInit).absorb (hiByte v)).absorb (loByte v)

/-- Assembles a frame in `tx` (R65, R66). -/
def State.loadTx (s : State) (frame : List Byte) : State := { s with tx := frame }

/-- Takes the bytes of a read into `rx` (R69, R70). -/
def State.loadRx (s : State) (bytes : List Byte) : State := { s with rx := bytes }

/-- After an operation has used `crc` its value is unspecified (R18): a free value (log 5). -/
def State.discardCrc (s : State) : State := { s with crc := Config.freeCrc s.fresh, fresh := s.fresh + 1 }

/-- After an operation has used `tx` its value is unspecified (R18): a free value of a legal length (log 5). -/
def State.discardTx (s : State) : State := { s with tx := freeTx s.fresh, fresh := s.fresh + 1 }

/-- After an operation has used `rx` its value is unspecified (R18): a free value of a legal length (log 5). -/
def State.discardRx (s : State) : State :=
  { s with rx := freeRx s.fresh s.config.maxBlockWords, fresh := s.fresh + 1 }

/-- Appends an event to `hist` and evaluates the hazard rules, which can only set `hazard` (R23, R24, R68, R74). -/
def State.record (s : State) (e : Event) : State :=
  { s with hist := s.hist ++ [e], hazard := s.hazard || breaksObligation s.hist e }

/-- Delivers an operation's outcome to the host (R87, R88). -/
def State.deliver (s : State) (o : OpOutcome) : State := { s with outcomes := s.outcomes ++ [o] }

/-- `raise <Error>(info)` (R12, R88): no state is saved, no mode changes, nothing is vectored; the outcome goes to the host. The
operation that raises has discarded its datapath registers before. -/
def State.raise (s : State) (e : OpError) : State := s.deliver (.err e)

/-- `refuse <Reason>` (R12, R84): no transaction, no event, no state changed; the outcome goes to the host. -/
def State.refuse (s : State) (r : RefuseReason) : State := s.deliver (.refused r)

/-- `return Ok(v)` (R12). -/
def State.accept (s : State) (r : OpResult) : State := s.deliver (.ok r)

/-- The transport's answer to writing `frame` next: the next given answer, or a free value (R22; log 3). -/
def State.writeAnswer (s : State) (frame : List Byte) : WriteAnswer :=
  match s.writeAnswers with
  | a :: _ => a
  | [] => Config.oracleWrite s.fresh s.hist s.config.devAddr frame

/-- The transport's answer to reading `n` bytes next: the next given answer, or a free value (R22; log 3). -/
def State.readAnswer (s : State) (n : Nat) (rs : Bool) : ReadAnswer :=
  match s.readAnswers with
  | a :: _ => a
  | [] => Config.oracleRead s.fresh s.hist s.config.devAddr n rs

/-- Whether writing `frame` next succeeds (R32). -/
def State.writeResult (s : State) (frame : List Byte) : WriteResult :=
  writeResultOf frame.length (s.writeAnswer frame)

/-- What reading `n` bytes next gives (R32). -/
def State.readResult (s : State) (n : Nat) (rs : Bool) : ReadResult :=
  readResultOf n (s.readAnswer n rs)

/-- Uses up one answer to a write. -/
def State.takeWriteAnswer (s : State) : State :=
  { s with writeAnswers := s.writeAnswers.tail, fresh := s.fresh + 1 }

/-- Uses up one answer to a read. -/
def State.takeReadAnswer (s : State) : State :=
  { s with readAnswers := s.readAnswers.tail, fresh := s.fresh + 1 }

/-- `BusWrite(DEV_ADDR, tx)` (R13, R6): one write transaction of the frame in `tx`, recorded with the result `r` the transport
gives it. -/
def State.busWrite (s : State) (r : WriteResult) : State :=
  s.takeWriteAnswer.record (.wr s.config.devAddr s.tx r)

/-- `BusRead(DEV_ADDR, n, rs)` (R13, R6): one read transaction of `n` bytes, recorded with the result `r` the transport gives
it. -/
def State.busRead (s : State) (n : Nat) (rs : Bool) (r : ReadResult) : State :=
  s.takeReadAnswer.record (.rd s.config.devAddr n rs r)

/-- The outcome of a write operation of `n` bytes (R65, R66, R82). -/
def writeOutcome (n : Nat) : WriteResult → OpOutcome
  | .ok => .ok .unit
  | .fail => .err (.transport .write n)

/-- Writes one frame from `tx` and reports its outcome: one transaction, no retry (R31, R65 to R68). -/
def State.sendFrame (s : State) (frame : List Byte) : State :=
  let loaded := s.loadTx frame
  let r := loaded.writeResult loaded.tx
  ((loaded.busWrite r).discardTx).deliver (writeOutcome frame.length r)

/-- The `STRICT` check of groups `k, k+1, …` of `rx`, `n` of them, through the CRC register: the state after it, and the first
failing group (R73). -/
def State.strictCheck : Nat → Nat → State → State × Option Nat
  | 0, _, s => (s, none)
  | n + 1, k, s =>
    let checked := s.runCrc (wordAt s.rx k)
    if checked.crc = checkAt s.rx k then State.strictCheck n (k + 1) checked else (checked, some k)

/-- `CheckGroups(rx, n)`: nothing is compared under `LENIENT` (R72); under `STRICT` the groups are checked in ascending order and
the first failing one is named (R73). -/
def State.checkGroups (s : State) (n : Nat) : State × Option Nat :=
  match s.config.checkPolicy with
  | .lenient => (s, none)
  | .strict => ((State.strictCheck n 0 s).1.discardCrc, (State.strictCheck n 0 s).2)

/-- Decodes the `count` groups in `rx`: the words, or the error of the first failing group, under which no words are returned
(R69, R70, R73). `pack` makes the operation's result of the words. -/
def State.decodeGroups (s : State) (count : Nat) (pack : List Word → OpResult) : State :=
  match (s.checkGroups count).2 with
  | some k => (s.checkGroups count).1.discardRx.raise (.checksum k)
  | none => (s.checkGroups count).1.discardRx.accept (pack (words s.rx count))

/-- Reads `count` groups in one transaction and decodes them; a failed read delivers no words, and its buffer is discarded (R31,
R69, R70, R74, R88). -/
def State.readGroups (s : State) (count : Nat) (rs : Bool) (pack : List Word → OpResult) : State :=
  let r := s.readResult (readLength count) rs
  match r with
  | .fail => (s.busRead (readLength count) rs r).discardRx.raise (.transport .read (readLength count))
  | .ok bytes => ((s.busRead (readLength count) rs r).loadRx bytes).decodeGroups count pack

/-- The outcome codes (R85). -/
def outcomeCode : OpOutcome → Nat
  | .ok _ => 0
  | .err (.transport _ _) => 1
  | .err (.checksum _) => 2
  | .refused .reservedOp => 3
  | .refused (.operandRange _) => 4
  | .refused .blockCount => 5

end Sys2Proof.Machine
end

