-- ==== Sys2Proof/Machine/ChecksumUnit.lean ====
section
/-! DEFINITION. The operation of the Checksum Unit (40_crc.md R59). -/

namespace Sys2Proof.Machine

/-- `CRC8` (R59): an out-of-range value is refused (R54); otherwise the CRC register is run over the value's two bytes and its
final value returned. No transaction, no event. -/
def execCrc8 (value : Nat) (s : State) : Host.Outcome State Fault Refusal :=
  .next (if wordMax < value then s.refuse (.operandRange .value)
    else
      let ran := s.runCrc (BitVec.ofNat 16 value)
      ran.discardCrc.accept (.byte ran.crc))

end Sys2Proof.Machine
end

