-- ==== Sys2Proof/Machine/CommandEncode.lean ====
section
/-! DEFINITION. The write operations of the Command Codec (41_command_encode.md R65, R66). -/

namespace Sys2Proof.Machine

/-- The pseudocode of `SEND_PLAIN` (R65). -/
def State.sendPlain (s : State) (opcode : Nat) : State :=
  if wordMax < opcode then s.refuse (.operandRange .opcode)
  else s.sendFrame (plainFrame (BitVec.ofNat 16 opcode))

/-- The pseudocode of `SEND_PARAM` (R66): the opcode is checked first, the CRC covers the parameter only (R63). -/
def State.sendParam (s : State) (opcode param : Nat) : State :=
  if wordMax < opcode then s.refuse (.operandRange .opcode)
  else if wordMax < param then s.refuse (.operandRange .param)
  else
    let ran := s.runCrc (BitVec.ofNat 16 param)
    (ran.sendFrame (paramFrame (BitVec.ofNat 16 opcode) (BitVec.ofNat 16 param) ran.crc)).discardCrc

/-- `SEND_PLAIN` (R65). -/
def execSendPlain (opcode : Nat) (s : State) : Host.Outcome State Fault Refusal :=
  .next (s.sendPlain opcode)

/-- `SEND_PARAM` (R66). -/
def execSendParam (opcode param : Nat) (s : State) : Host.Outcome State Fault Refusal :=
  .next (s.sendParam opcode param)

end Sys2Proof.Machine
end

