-- ==== Sys2Proof/Machine/DeviceCommands.lean ====
section
/-! DEFINITION. The device command set (43_device_commands.md R75 to R80): each command is the write operation of its frame
class with its fixed opcode (30_encoding.md R57). The wait and the read that follow a response-bearing command are actions of
their own. -/

namespace Sys2Proof.Machine

/-- `DATA_READY_QUERY`, `dready` = `send 0xE4B8` (R75). -/
def execDataReadyQuery (s : State) : Host.Outcome State Fault Refusal :=
  .next (s.sendPlain opDataReadyQuery.toNat)

/-- `READ_MEASUREMENTS`, `rdmeas` = `send 0xEC05` (R76). -/
def execReadMeasurements (s : State) : Host.Outcome State Fault Refusal :=
  .next (s.sendPlain opReadMeasurements.toNat)

/-- `START_CONT`, `start` = `send 0x21B1` (R77). -/
def execStartCont (s : State) : Host.Outcome State Fault Refusal :=
  .next (s.sendPlain opStartCont.toNat)

/-- `STOP_CONT`, `stop` = `send 0x3F86` (R78). -/
def execStopCont (s : State) : Host.Outcome State Fault Refusal :=
  .next (s.sendPlain opStopCont.toNat)

/-- `CALIBRATE`, `frc <p>` = `sendp 0x362F, <p>` (R79). -/
def execCalibrate (param : Nat) (s : State) : Host.Outcome State Fault Refusal :=
  .next (s.sendParam opCalibrate.toNat param)

/-- `FACTORY_RESET`, `freset` = `send 0x3632` (R80); the once-per-power-cycle guard is the host's (90_conflicts.md C6). -/
def execFactoryReset (s : State) : Host.Outcome State Fault Refusal :=
  .next (s.sendPlain opFactoryReset.toNat)

end Sys2Proof.Machine
end

