-- ==== Sys2Proof/Machine/ReservedOps.lean ====
section
/-! DEFINITION. The reserved select codes (30_encoding.md R53): refused as `ReservedOp`, after which the block accepts the next
request (60_exceptions.md R84, R89). -/

namespace Sys2Proof.Machine

/-- `op = 0b101` (R53). -/
def execReservedOp5 (s : State) : Host.Outcome State Fault Refusal :=
  .next (s.refuse .reservedOp)

/-- `op = 0b110` (R53). -/
def execReservedOp6 (s : State) : Host.Outcome State Fault Refusal :=
  .next (s.refuse .reservedOp)

/-- `op = 0b111` (R53). -/
def execReservedOp7 (s : State) : Host.Outcome State Fault Refusal :=
  .next (s.refuse .reservedOp)

end Sys2Proof.Machine
end

