-- ==== Sys2Proof/Machine/ResponseDecode.lean ====
section
/-! DEFINITION. The read operations of the Command Codec (42_response_decode.md R69, R70). -/

namespace Sys2Proof.Machine

/-- The result of `READ_WORD`: the one word of a one-group buffer (R69: `[w] <- Words(rx, 1)`). The default is never reached. -/
def packWord (ws : List Word) : OpResult := .word (ws.headD 0)

/-- The result of `READ_BLOCK`: the words in the order received (R70). -/
def packWords (ws : List Word) : OpResult := .words ws

/-- `READ_WORD` (R69): one 3-byte read with the repeated-start attribute `rs`. -/
def execReadWord (rs : Nat) (s : State) : Host.Outcome State Fault Refusal :=
  .next (if 1 < rs then s.refuse (.operandRange .rs) else s.readGroups 1 (rs == 1) packWord)

/-- `READ_BLOCK` (R70): one burst of `3 * count` bytes with `rs = 0`; a count of 0 or above `MAX_BLOCK_WORDS` is refused. -/
def execReadBlock (count : Nat) (s : State) : Host.Outcome State Fault Refusal :=
  .next (if count < 1 ∨ s.config.maxBlockWords < count then s.refuse .blockCount
    else s.readGroups count false packWords)

end Sys2Proof.Machine
end

