-- ==== Sys2Proof/Machine/Dispatch.lean ====
section
/-! DEFINITION. One arm per instruction: the meaning each row of the opcode table has. -/

namespace Sys2Proof.Machine

/-- The effect of one instruction. -/
def exec (i : Instr) (s : State) : Host.Outcome State Fault Refusal :=
  match i with
  | .crc8 value => Sys2Proof.Machine.execCrc8 value s
  | .sendPlain opcode => Sys2Proof.Machine.execSendPlain opcode s
  | .sendParam opcode param => Sys2Proof.Machine.execSendParam opcode param s
  | .readWord rs => Sys2Proof.Machine.execReadWord rs s
  | .readBlock count => Sys2Proof.Machine.execReadBlock count s
  | .reservedOp5 => Sys2Proof.Machine.execReservedOp5 s
  | .reservedOp6 => Sys2Proof.Machine.execReservedOp6 s
  | .reservedOp7 => Sys2Proof.Machine.execReservedOp7 s
  | .dataReadyQuery => Sys2Proof.Machine.execDataReadyQuery s
  | .readMeasurements => Sys2Proof.Machine.execReadMeasurements s
  | .startCont => Sys2Proof.Machine.execStartCont s
  | .stopCont => Sys2Proof.Machine.execStopCont s
  | .calibrate param => Sys2Proof.Machine.execCalibrate param s
  | .factoryReset => Sys2Proof.Machine.execFactoryReset s

end Sys2Proof.Machine
end

