-- ==== Sys2Proof/Machine/HostActions.lean ====
section
/-! DEFINITION. The host's side of a step: taking its next action, `WAIT` (70_reset_and_hazards.md R102) and the power cycle
(R100), and placing actions from outside. -/

namespace Sys2Proof.Machine

/-- The host's next action and the state with that action taken, or `none` where the host issues nothing (R16; log 1). -/
def State.takeAction (s : State) : Option (HostAction × State) :=
  match s.pending with
  | [] => none
  | a :: rest => some (a, { s with pending := rest })

/-- `WAIT` (R102): appends `Wait` to `hist`; no transaction, no outcome, no other state changed. -/
def State.wait (s : State) : State := s.record .wait

/-- A power cycle is a reset of the block (R100, R99): the configuration is the instantiation's, the datapath registers are
unspecified (free values), no other state of the block survives (R98). The inputs from outside stay (log 16). -/
def State.powerCycle (s : State) : State :=
  { State.resetWith s.config with
    pending := s.pending
    writeAnswers := s.writeAnswers
    readAnswers := s.readAnswers
    fresh := s.fresh }.discardCrc.discardTx.discardRx

/-- Loads a host program: its actions are performed after those already pending (log 1). -/
def State.load (s : State) (program : List HostAction) : State := { s with pending := s.pending ++ program }

/-- Places one instruction where the next step takes it. -/
def State.placeNext (s : State) (e : Encoded) : State := { s with pending := .submit e :: s.pending }

end Sys2Proof.Machine
end

