-- ==== Sys2Proof/Machine/Step.lean ====
section
/-! DEFINITION. One step of the machine: the host's next action, performed whole (20_memory.md R36). -/

namespace Sys2Proof.Machine

/-- One step. A submitted instruction is decoded and executed; `WAIT` and the power cycle are host actions (R102, R100). With no
action pending the block waits for its host and nothing changes (DESIGN CHOICE, log 2). -/
def step (s : State) : Host.Outcome State Fault Refusal :=
  match s.takeAction with
  | none => .next s
  | some (.wait, t) => .next t.wait
  | some (.powerCycle, t) => .next t.powerCycle
  | some (.submit e, t) =>
    match decode e with
    | .ok i => exec i t
    | .error why => .refused (.undecodable why)

/-- `s` with the instruction whose bits are `w` (numbered as spec/opcode_table.json numbers them) as the host's next action, so
that the next step runs exactly it. -/
def State.withFetchWord (s : State) (nbits w : Nat) : State := s.placeNext (tableEncoding nbits w)

end Sys2Proof.Machine
end

