-- ==== Sys2Proof/Machine/Assembler.lean ====
section
/-! DEFINITION. The textual form of host programs (30_encoding.md R56) and the pseudo-instructions (R57). No behaviour of the
block depends on it (92_eei_decisions.md D17). Text is a list of characters; what R56 does not say of it is log 23. -/

namespace Sys2Proof.Machine

/-- One line of a host program: the seven forms of R56, then the nine pseudo-instructions of R57. -/
inductive AsmLine where
  | crc8 (v : Nat)
  | send (opcode : Nat)
  | sendp (opcode param : Nat)
  | rdw
  | rdwRs
  | rdb (n : Nat)
  | wait
  | dready
  | rdmeas
  | start
  | stop
  | frc (param : Nat)
  | freset
  | qready
  | qmeas
  | cal400
deriving DecidableEq, Repr

/-- Why a line is no line of R56 or R57. -/
inductive AsmError where
  | unknownForm (tokens : List (List Char))
  | badNumber (token : List Char)
deriving DecidableEq, Repr

/-- The request of `send <op16>` (R56). -/
def sendAction (opcode : Nat) : HostAction := .submit (encode (.sendPlain opcode))

/-- The request of `sendp <op16>, <p16>` (R56). -/
def sendpAction (opcode param : Nat) : HostAction := .submit (encode (.sendParam opcode param))

/-- The request of `rdw` (`rs = 0`) or `rdw.rs` (`rs = 1`) (R56). -/
def rdwAction (rs : Nat) : HostAction := .submit (encode (.readWord rs))

/-- The request of `rdb <n>` (R56). -/
def rdbAction (n : Nat) : HostAction := .submit (encode (.readBlock n))

/-- The host actions a line stands for: one request or action (R56), or the expansion of a pseudo-instruction (R57). -/
def AsmLine.expand : AsmLine → List HostAction
  | .crc8 v => [.submit (encode (.crc8 v))]
  | .send opcode => [sendAction opcode]
  | .sendp opcode param => [sendpAction opcode param]
  | .rdw => [rdwAction 0]
  | .rdwRs => [rdwAction 1]
  | .rdb n => [rdbAction n]
  | .wait => [.wait]
  | .dready => [sendAction 0xE4B8]
  | .rdmeas => [sendAction 0xEC05]
  | .start => [sendAction 0x21B1]
  | .stop => [sendAction 0x3F86]
  | .frc param => [sendpAction 0x362F param]
  | .freset => [sendAction 0x3632]
  | .qready => [sendAction 0xE4B8, .wait, rdwAction 0]
  | .qmeas => [sendAction 0xEC05, .wait, rdbAction 6]
  | .cal400 => [sendAction 0x3F86, sendpAction 0x362F 400, sendAction 0x21B1]

/-- Puts a character in front of the first token, where a token is being read. -/
def consChar (c : Char) : List (List Char) → List (List Char)
  | [] => [[c]]
  | t :: ts => (c :: t) :: ts

/-- Splits a line into raw tokens at blanks and around commas, up to a `;` (R56: "`;` starts a comment"). -/
def rawTokens : List Char → List (List Char)
  | [] => [[]]
  | c :: cs =>
    if c = ';' then [[]]
    else if c = ' ' ∨ c = '\t' then [] :: rawTokens cs
    else if c = ',' then [] :: [','] :: rawTokens cs
    else consChar c (rawTokens cs)

/-- The tokens of a line. -/
def tokens (line : List Char) : List (List Char) := (rawTokens line).filter fun t => !t.isEmpty

/-- The digits of the immediates (R56), each at the place that is its value. -/
def immediateDigits : List Char := "0123456789ABCDEF".toList

/-- The value of a digit in a base of at most 16, where the character is one; letters count in either case. -/
def digitIn (base : Nat) (c : Char) : Option Nat := (immediateDigits.take base).findIdx? fun d => d == c.toUpper

/-- The value of a run of digits in a base, the first one the most significant. -/
def digitsIn (base : Nat) (ds : List Char) : Option Nat :=
  ds.foldlM (fun acc c => (digitIn base c).map fun d => base * acc + d) 0

/-- An immediate: hexadecimal `0x..` or decimal (R56). -/
def parseNumber (t : List Char) : Except AsmError Nat :=
  let value :=
    match t with
    | '0' :: 'x' :: d :: ds => digitsIn 16 (d :: ds)
    | d :: ds => digitsIn 10 (d :: ds)
    | [] => none
  match value with
  | some n => .ok n
  | none => .error (.badNumber t)

/-- The forms that take no operand (R56, R57). -/
def bareForm (t : List Char) : Option AsmLine :=
  if t = "rdw".toList then some .rdw
  else if t = "rdw.rs".toList then some .rdwRs
  else if t = "wait".toList then some .wait
  else if t = "dready".toList then some .dready
  else if t = "rdmeas".toList then some .rdmeas
  else if t = "start".toList then some .start
  else if t = "stop".toList then some .stop
  else if t = "freset".toList then some .freset
  else if t = "qready".toList then some .qready
  else if t = "qmeas".toList then some .qmeas
  else if t = "cal400".toList then some .cal400
  else none

/-- The forms that take one operand (R56, R57). -/
def unaryForm (t : List Char) : Option (Nat → AsmLine) :=
  if t = "crc8".toList then some .crc8
  else if t = "send".toList then some .send
  else if t = "rdb".toList then some .rdb
  else if t = "frc".toList then some .frc
  else none

/-- The line the tokens stand for; no tokens are an empty line. -/
def parseTokens (ts : List (List Char)) : Except AsmError (Option AsmLine) :=
  match ts with
  | [] => .ok none
  | [m] =>
    match bareForm m with
    | some l => .ok (some l)
    | none => .error (.unknownForm ts)
  | [m, a] =>
    match unaryForm m with
    | some f => (parseNumber a).map fun n => some (f n)
    | none => .error (.unknownForm ts)
  | [m, a, comma, b] =>
    if m = "sendp".toList ∧ comma = [','] then
      match parseNumber a, parseNumber b with
      | .ok x, .ok y => .ok (some (.sendp x y))
      | .error e, _ => .error e
      | _, .error e => .error e
    else .error (.unknownForm ts)
  | _ => .error (.unknownForm ts)

/-- One line of text (R56). -/
def parseLine (line : List Char) : Except AsmError (Option AsmLine) := parseTokens (tokens line)

/-- The host actions of one line of text. -/
def assembleLine (line : List Char) : Except AsmError (List HostAction) :=
  (parseLine line).map fun l => match l with
    | some l => l.expand
    | none => []

/-- Splits a text into lines. -/
def textLines : List Char → List (List Char)
  | [] => [[]]
  | c :: cs => if c = '\n' then [] :: textLines cs else consChar c (textLines cs)

/-- The host actions of the lines of a program, in order. -/
def assembleLines : List (List Char) → Except AsmError (List HostAction)
  | [] => .ok []
  | l :: ls =>
    match assembleLine l, assembleLines ls with
    | .ok a, .ok as => .ok (a ++ as)
    | .error e, _ => .error e
    | _, .error e => .error e

/-- Assembles a host program from its text: one request or host action on each line (R56). -/
def assemble (text : List Char) : Except AsmError (List HostAction) := assembleLines (textLines text)

end Sys2Proof.Machine
end

