-- ==== Sys2Proof/Safety.lean ====
section
/-! DEFINITION. What a safe run is: the host's obligations said of the whole history (70_reset_and_hazards.md R103 to R106), and
the invariants of the state. -/

namespace Sys2Proof.Machine

/-- The frame's opcode, its bytes 0 and 1, is one of the two response-bearing commands (R81, R104). -/
abbrev CommandsResponse (frame : List Byte) : Prop :=
  [hiByte opDataReadyQuery, loByte opDataReadyQuery] <+: frame ∨
    [hiByte opReadMeasurements, loByte opReadMeasurements] <+: frame

/-- R103 and R105 together: the events before a read are a successful write and then one `Wait` or more. -/
def CommandedAndWaited (before : List Event) : Prop :=
  ∃ h addr frame j, before = h ++ [.wr addr frame .ok] ++ List.replicate (j + 1) .wait

/-- R104: a successful response-bearing write stands in the history with no read after it. -/
def SequenceOpen (before : List Event) : Prop :=
  ∃ h addr frame rest, before = h ++ [.wr addr frame .ok] ++ rest ∧ CommandsResponse frame ∧
    ∀ a n rs r, Event.rd a n rs r ∉ rest

/-- The obligation of the host that an event may break, given the events before it (R103 to R105). -/
def Respects (before : List Event) : Event → Prop
  | .wr _ _ _ => ¬ SequenceOpen before
  | .rd _ _ _ _ => CommandedAndWaited before
  | .wait => True

/-- A history in which the host kept every obligation. -/
def CleanHistory (h : List Event) : Prop :=
  ∀ before e after, h = before ++ e :: after → Respects before e

/-- `hazard` says exactly that the host broke an obligation (R24, R106). -/
def State.HazardExact (s : State) : Prop := s.hazard = false ↔ CleanHistory s.hist

/-- The shape of an event the block can record: it targets `DEV_ADDR` (R6), a write has 2 or 5 bytes, a read `3 * count` with
`count` in `1..MAX_BLOCK_WORDS`, and a successful read delivers exactly the bytes it asked for (R31, R32). -/
def eventShape (c : Configuration) : Event → Bool
  | .wr addr frame _ => decide (addr = c.devAddr) && (frame.length == 2 || frame.length == 5)
  | .rd addr n _ .fail => decide (addr = c.devAddr) && (n % 3 == 0 && decide (3 ≤ n ∧ n ≤ 3 * c.maxBlockWords))
  | .rd addr n _ (.ok bytes) =>
    decide (addr = c.devAddr) && (n % 3 == 0 && decide (3 ≤ n ∧ n ≤ 3 * c.maxBlockWords)) && bytes.length == n
  | .wait => true

/-- The shape of the state: a legal configuration (R19), `tx` and `rx` of their legal lengths (R18), every event of the history
of its legal shape (R6, R31, R32). -/
abbrev State.Shape (s : State) : Prop :=
  s.config.Legal ∧ (s.tx.length = 0 ∨ s.tx.length = 2 ∨ s.tx.length = 5) ∧
    (s.rx.length % 3 = 0 ∧ 3 ≤ s.rx.length ∧ s.rx.length ≤ 3 * s.config.maxBlockWords) ∧
    ∀ e ∈ s.hist, eventShape s.config e = true

/-- A safe state: no obligation of the host has been broken so far (R106). -/
abbrev State.Safe (s : State) : Prop := s.hazard = false

end Sys2Proof.Machine
end

