-- ==== Sys2Proof/Certificates/Slice0/Obligations.lean ====
section
/-! DEFINITION. The statements for the provers, from the numbered rules of spec/. A free value (a datapath register after an
operation, the index `fresh`) stands under an existential: nothing is said of it. A statement that compares two runs names the log
entries it rests on. -/

open Sys2Proof Sys2Proof.Machine

/-! ### The CRC -/

/-- R61: shift left, XOR with 0x31 if the high bit was set, mask to 8 bits; with the rule's corner cases. -/
def Obligations.CrcBitShiftsReducesAndMasks : Prop :=
  (∀ c : Byte, (crcBit c).toNat = (if 128 ≤ c.toNat then (2 * c.toNat) ^^^ 0x31 else 2 * c.toNat) % 256) ∧
    crcBit 0x00 = 0x00 ∧ crcBit 0x80 = 0x31 ∧ crcBit 0xFF = 0xCF

/-- R60: XOR the byte into the register, then eight bit steps; with the rule's worked example. -/
def Obligations.CrcByteIsXorThenEightBitSteps : Prop :=
  (∀ c b : Byte, crcByte c b = crcBit^[8] (c ^^^ b)) ∧ crcByte 0xFF 0x01 = 0x9D

/-- R59: `CRC8` of every 16-bit value completes with the checksum, on no transaction and no event, with "no side effects":
nothing else changes but the datapath register `crc` it runs in. An out-of-range value is refused before any computation. -/
def Obligations.Crc8ReturnsTheChecksum : Prop :=
  (∀ r : Request, r.op = 0b000#3 → decode (.request r) = .ok (.crc8 r.value)) ∧
  (∀ (s : State) (v : Word), ∃ crc fresh,
    exec (.crc8 v.toNat) s = .next { s with
      crc := crc
      fresh := fresh
      outcomes := s.outcomes ++
        [.ok (.byte (crcByte (crcByte 0xFF (v.extractLsb' 8 8)) (v.extractLsb' 0 8)))] }) ∧
  (∀ (s : State) (value : Nat), 0xFFFF < value →
    exec (.crc8 value) s = .next { s with outcomes := s.outcomes ++ [.refused (.operandRange .value)] }) ∧
  crc8 0x0000 = 0x81 ∧ crc8 0xFF00 = 0x00 ∧ crc8 0xFFFF = 0xAC ∧ crc8 0x0190 = 0x4C

/-- R62 item 1: the residue over a word and a byte is zero exactly when the byte is the word's `CRC8`. -/
def Obligations.ResidueIsZeroExactlyForTheChecksum : Prop :=
  ∀ (w : Word) (b : Byte), crcSeq [hiByte w, loByte w, b] = 0 ↔ b = crc8 w

/-- R62 item 2: `CRC8` is affine over XOR. -/
def Obligations.Crc8IsAffine : Prop :=
  (∀ a b : Word, crc8 (a ^^^ b) = crc8 a ^^^ crc8 b ^^^ crc8 0) ∧ crc8 0 = 0x81

/-- R62 item 3: for a fixed high byte the low byte gives a bijection, and every result has exactly 256 inputs. -/
def Obligations.Crc8IsBalanced : Prop :=
  (∀ hi : Byte, Function.Bijective fun lo : Byte => crc8 (hi ++ lo)) ∧
    ∀ r : Byte, Nat.card { v : Word // crc8 v = r } = 256

/-- R62 item 4: flipping any one bit of the input changes `CRC8`. -/
def Obligations.Crc8DetectsEverySingleBitFlip : Prop :=
  ∀ (v : Word) (i : Nat), i < 16 → crc8 (v ^^^ (1#16 <<< i)) ≠ crc8 v

/-! ### The write operations -/

/-- R65: one 2-byte write of the opcode, high byte first, `Ok(())` or `TransportError(Write, 2)`; nothing else changes but the
datapath register `tx`. An out-of-range opcode is refused. That `crc` and `rx`, which the write has not used, keep their contents
is the model's choice (log 5); R18 leaves them unspecified. -/
def Obligations.SendPlainWritesTheOpcodeBigEndian : Prop :=
  (∀ r : Request, r.op = 0b001#3 → decode (.request r) = .ok (.sendPlain r.opcode)) ∧
  (∀ (s : State) (op : Word), ∃ tx fresh,
    exec (.sendPlain op.toNat) s = .next { s with
      tx := tx
      fresh := fresh
      hist := s.hist ++ [.wr s.config.devAddr [op.extractLsb' 8 8, op.extractLsb' 0 8]
        (s.writeResult [op.extractLsb' 8 8, op.extractLsb' 0 8])]
      hazard := s.hazard || sequenceOpen s.hist
      writeAnswers := s.writeAnswers.tail
      outcomes := s.outcomes ++ [match s.writeResult [op.extractLsb' 8 8, op.extractLsb' 0 8] with
        | .ok => .ok .unit
        | .fail => .err (.transport .write 2)] }) ∧
  (∀ (s : State) (opcode : Nat), 0xFFFF < opcode →
    exec (.sendPlain opcode) s = .next { s with outcomes := s.outcomes ++ [.refused (.operandRange .opcode)] })

/-- R66: one 5-byte write of opcode, parameter and the `CRC8` of the parameter alone, `Ok(())` or `TransportError(Write, 5)`;
nothing else changes but the datapath registers `crc` and `tx`. The opcode's range is checked before the parameter's. That `rx`,
which the write has not used, keeps its contents is the model's choice (log 5); R18 leaves it unspecified. -/
def Obligations.SendParamWritesOpcodeParameterAndChecksum : Prop :=
  (∀ r : Request, r.op = 0b010#3 → decode (.request r) = .ok (.sendParam r.opcode r.param)) ∧
  (∀ (s : State) (op p : Word), ∃ crc tx fresh,
    exec (.sendParam op.toNat p.toNat) s = .next { s with
      crc := crc
      tx := tx
      fresh := fresh
      hist := s.hist ++ [.wr s.config.devAddr
        [op.extractLsb' 8 8, op.extractLsb' 0 8, p.extractLsb' 8 8, p.extractLsb' 0 8, crc8 p]
        (s.writeResult [op.extractLsb' 8 8, op.extractLsb' 0 8, p.extractLsb' 8 8, p.extractLsb' 0 8, crc8 p])]
      hazard := s.hazard || sequenceOpen s.hist
      writeAnswers := s.writeAnswers.tail
      outcomes := s.outcomes ++ [match s.writeResult
          [op.extractLsb' 8 8, op.extractLsb' 0 8, p.extractLsb' 8 8, p.extractLsb' 0 8, crc8 p] with
        | .ok => .ok .unit
        | .fail => .err (.transport .write 5)] }) ∧
  (∀ (s : State) (opcode param : Nat), 0xFFFF < opcode →
    exec (.sendParam opcode param) s = .next { s with outcomes := s.outcomes ++ [.refused (.operandRange .opcode)] }) ∧
  (∀ (s : State) (opcode param : Nat), opcode ≤ 0xFFFF → 0xFFFF < param →
    exec (.sendParam opcode param) s = .next { s with outcomes := s.outcomes ++ [.refused (.operandRange .param)] })

/-! ### The device commands -/

/-- R57: the single-command forms are the operations they expand to, and every pseudo-instruction expands as the rule's table
says. -/
def Obligations.PseudoInstructionsAreTheirExpansions : Prop :=
  (∀ s : State, exec .dataReadyQuery s = exec (.sendPlain 0xE4B8) s ∧
    exec .readMeasurements s = exec (.sendPlain 0xEC05) s ∧
    exec .startCont s = exec (.sendPlain 0x21B1) s ∧
    exec .stopCont s = exec (.sendPlain 0x3F86) s ∧
    (∀ p, exec (.calibrate p) s = exec (.sendParam 0x362F p) s) ∧
    exec .factoryReset s = exec (.sendPlain 0x3632) s) ∧
  AsmLine.dready.expand = (AsmLine.send 0xE4B8).expand ∧
  AsmLine.rdmeas.expand = (AsmLine.send 0xEC05).expand ∧
  AsmLine.start.expand = (AsmLine.send 0x21B1).expand ∧
  AsmLine.stop.expand = (AsmLine.send 0x3F86).expand ∧
  (∀ p, (AsmLine.frc p).expand = (AsmLine.sendp 0x362F p).expand) ∧
  AsmLine.freset.expand = (AsmLine.send 0x3632).expand ∧
  AsmLine.qready.expand = (AsmLine.send 0xE4B8).expand ++ AsmLine.wait.expand ++ AsmLine.rdw.expand ∧
  AsmLine.qmeas.expand = (AsmLine.send 0xEC05).expand ++ AsmLine.wait.expand ++ (AsmLine.rdb 6).expand ∧
  AsmLine.cal400.expand = (AsmLine.send 0x3F86).expand ++ (AsmLine.sendp 0x362F 400).expand ++ (AsmLine.send 0x21B1).expand

/-- The five plain device commands (R75 to R78, R80): one write of the two opcode bytes, the `Wr` of each rule's bus traffic,
and what else changes. R75 and R76 give the traffic of `DATA_READY_QUERY` and `READ_MEASUREMENTS` as `Wr`, `Wait`, `Rd`: that
the instruction is the write alone, and the wait and the read after it are separate actions of the host, is the model's choice
(log 12). That `crc` and `rx`, which the write has not used, keep their contents is the model's choice too (log 5); R18 leaves
them unspecified. -/
def Obligations.PlainDeviceCommandsWriteTheirOpcode : Prop :=
  ∀ s : State, ∀ p ∈ [(Instr.dataReadyQuery, (0xE4 : Byte), (0xB8 : Byte)), (Instr.readMeasurements, 0xEC, 0x05),
      (Instr.startCont, 0x21, 0xB1), (Instr.stopCont, 0x3F, 0x86), (Instr.factoryReset, 0x36, 0x32)],
    ∃ tx fresh,
      exec p.1 s = .next { s with
        tx := tx
        fresh := fresh
        hist := s.hist ++ [.wr s.config.devAddr [p.2.1, p.2.2] (s.writeResult [p.2.1, p.2.2])]
        hazard := s.hazard || sequenceOpen s.hist
        writeAnswers := s.writeAnswers.tail
        outcomes := s.outcomes ++ [match s.writeResult [p.2.1, p.2.2] with
          | .ok => .ok .unit
          | .fail => .err (.transport .write 2)] }

/-- R79, the bus traffic of `CALIBRATE`: one write of `36 2F`, the parameter and its `CRC8`; every 16-bit parameter is framed, a
wider one refused. That `rx`, which the write has not used, keeps its contents is the model's choice (log 5), not R79's; R18
leaves it unspecified. -/
def Obligations.CalibrateWritesTheParameterAndItsChecksum : Prop :=
  (∀ (s : State) (p : Word), ∃ crc tx fresh,
    exec (.calibrate p.toNat) s = .next { s with
      crc := crc
      tx := tx
      fresh := fresh
      hist := s.hist ++ [.wr s.config.devAddr [0x36, 0x2F, p.extractLsb' 8 8, p.extractLsb' 0 8, crc8 p]
        (s.writeResult [0x36, 0x2F, p.extractLsb' 8 8, p.extractLsb' 0 8, crc8 p])]
      hazard := s.hazard || sequenceOpen s.hist
      writeAnswers := s.writeAnswers.tail
      outcomes := s.outcomes ++ [match s.writeResult [0x36, 0x2F, p.extractLsb' 8 8, p.extractLsb' 0 8, crc8 p] with
        | .ok => .ok .unit
        | .fail => .err (.transport .write 5)] }) ∧
  (∀ (s : State) (param : Nat), 0xFFFF < param →
    exec (.calibrate param) s = .next { s with outcomes := s.outcomes ++ [.refused (.operandRange .param)] })

/-! ### The read operations -/

/-- R69 with R72: under `LENIENT` a successful 3-byte read gives the word of its first two bytes, whatever the third is. That
`crc` (log 6) and `tx` (log 5), which the read has not used, keep their contents is the model's choice; R18 leaves them
unspecified. -/
def Obligations.ReadWordLenientReturnsTheWord : Prop :=
  ∀ (s : State) (rs : Nat) (b0 b1 b2 : Byte), rs ≤ 1 → s.config.checkPolicy = .lenient →
    s.readResult 3 (rs == 1) = .ok [b0, b1, b2] → ∃ rx fresh,
      exec (.readWord rs) s = .next { s with
        rx := rx
        fresh := fresh
        hist := s.hist ++ [.rd s.config.devAddr 3 (rs == 1) (.ok [b0, b1, b2])]
        hazard := s.hazard || endsInWriteWithoutWait s.hist || noCommandPending s.hist
        readAnswers := s.readAnswers.tail
        outcomes := s.outcomes ++ [.ok (.word (b0 ++ b1))] }

/-- R69 with R73: under `STRICT` the third byte must be the `CRC8` of the word, else `ChecksumError(0)` and no word. That `tx`,
which the read has not used, keeps its contents is the model's choice (log 5); R18 leaves it unspecified. -/
def Obligations.ReadWordStrictChecksTheWord : Prop :=
  ∀ (s : State) (rs : Nat) (b0 b1 b2 : Byte), rs ≤ 1 → s.config.checkPolicy = .strict →
    s.readResult 3 (rs == 1) = .ok [b0, b1, b2] → ∃ crc rx fresh,
      exec (.readWord rs) s = .next { s with
        crc := crc
        rx := rx
        fresh := fresh
        hist := s.hist ++ [.rd s.config.devAddr 3 (rs == 1) (.ok [b0, b1, b2])]
        hazard := s.hazard || endsInWriteWithoutWait s.hist || noCommandPending s.hist
        readAnswers := s.readAnswers.tail
        outcomes := s.outcomes ++ [if b2 = crc8 (b0 ++ b1) then .ok (.word (b0 ++ b1)) else .err (.checksum 0)] }

/-- R74 with R82 and R88: a failed read delivers no words, its buffer `rx` is discarded, and it is reported once as
`TransportError(Read, n)`. That `crc` and `tx`, which the read has not used, keep their contents is the model's choice (logs 5
and 6); R18 leaves them unspecified. -/
def Obligations.FailedReadsDeliverNoWords : Prop :=
  (∀ (s : State) (rs : Nat), rs ≤ 1 → s.readResult 3 (rs == 1) = .fail → ∃ rx fresh,
    exec (.readWord rs) s = .next { s with
      rx := rx
      fresh := fresh
      hist := s.hist ++ [.rd s.config.devAddr 3 (rs == 1) .fail]
      hazard := s.hazard || endsInWriteWithoutWait s.hist || noCommandPending s.hist
      readAnswers := s.readAnswers.tail
      outcomes := s.outcomes ++ [.err (.transport .read 3)] }) ∧
  (∀ (s : State) (count : Nat), 1 ≤ count → count ≤ s.config.maxBlockWords →
    s.readResult (3 * count) false = .fail → ∃ rx fresh,
    exec (.readBlock count) s = .next { s with
      rx := rx
      fresh := fresh
      hist := s.hist ++ [.rd s.config.devAddr (3 * count) false .fail]
      hazard := s.hazard || endsInWriteWithoutWait s.hist || noCommandPending s.hist
      readAnswers := s.readAnswers.tail
      outcomes := s.outcomes ++ [.err (.transport .read (3 * count))] })

/-- R70 with R71 and R72: under `LENIENT` a successful burst of `3 * count` bytes gives the `count` big-endian words at byte
offsets 0, 3, 6, …, in order. That `crc` (log 6) and `tx` (log 5), which the read has not used, keep their contents is the
model's choice; R18 leaves them unspecified. -/
def Obligations.ReadBlockLenientReturnsTheWords : Prop :=
  ∀ (s : State) (count : Nat) (bytes : List Byte), 1 ≤ count → count ≤ s.config.maxBlockWords →
    s.config.checkPolicy = .lenient → s.readResult (3 * count) false = .ok bytes → ∃ rx fresh,
      exec (.readBlock count) s = .next { s with
        rx := rx
        fresh := fresh
        hist := s.hist ++ [.rd s.config.devAddr (3 * count) false (.ok bytes)]
        hazard := s.hazard || endsInWriteWithoutWait s.hist || noCommandPending s.hist
        readAnswers := s.readAnswers.tail
        outcomes := s.outcomes ++ [.ok (.words
          ((List.range count).map fun k => bytes.getD (3 * k) 0 ++ bytes.getD (3 * k + 1) 0))] }

/-- R70 with R73: under `STRICT`, if every group's check byte is the `CRC8` of its word the words are returned; otherwise the
operation fails as a whole with the lowest failing group. That `tx`, which the read has not used, keeps its contents is the
model's choice (log 5); R18 leaves it unspecified. -/
def Obligations.ReadBlockStrictNamesTheLowestBadGroup : Prop :=
  ∀ (s : State) (count : Nat) (bytes : List Byte), 1 ≤ count → count ≤ s.config.maxBlockWords →
    s.config.checkPolicy = .strict → s.readResult (3 * count) false = .ok bytes →
    ∃ crc rx fresh outcome,
      exec (.readBlock count) s = .next { s with
        crc := crc
        rx := rx
        fresh := fresh
        hist := s.hist ++ [.rd s.config.devAddr (3 * count) false (.ok bytes)]
        hazard := s.hazard || endsInWriteWithoutWait s.hist || noCommandPending s.hist
        readAnswers := s.readAnswers.tail
        outcomes := s.outcomes ++ [outcome] } ∧
      ((∀ k, k < count → bytes.getD (3 * k + 2) 0 = crc8 (bytes.getD (3 * k) 0 ++ bytes.getD (3 * k + 1) 0)) →
        outcome = .ok (.words ((List.range count).map fun k => bytes.getD (3 * k) 0 ++ bytes.getD (3 * k + 1) 0))) ∧
      ∀ k, k < count → bytes.getD (3 * k + 2) 0 ≠ crc8 (bytes.getD (3 * k) 0 ++ bytes.getD (3 * k + 1) 0) →
        (∀ j, j < k → bytes.getD (3 * j + 2) 0 = crc8 (bytes.getD (3 * j) 0 ++ bytes.getD (3 * j + 1) 0)) →
        outcome = .err (.checksum k)

/-- R72: under `LENIENT` no outcome depends on a check byte. Two runs of one read whose received bytes agree everywhere but at
the check bytes deliver the same outcome. -/
def Obligations.LenientOutcomesIgnoreCheckBytes : Prop :=
  ∀ (s t t' : State) (i : Instr) (a b : List Byte) (rest : List ReadAnswer),
    s.config.checkPolicy = .lenient → a.length = b.length →
    (∀ j, j % 3 ≠ 2 → a.getD j 0 = b.getD j 0) →
    exec i { s with readAnswers := .moved a :: rest } = .next t →
    exec i { s with readAnswers := .moved b :: rest } = .next t' →
    t.outcomes = t'.outcomes

/-- R62 item 1 with R70 and R73: a response whose groups are well formed decodes to its words, under both policies. -/
def Obligations.WellFormedResponsesDecodeToTheirWords : Prop :=
  ∀ (s : State) (ws : List Word) (rest : List ReadAnswer), 1 ≤ ws.length → ws.length ≤ s.config.maxBlockWords →
    ∃ t, exec (.readBlock ws.length) { s with readAnswers := .moved (ws.flatMap responseGroup) :: rest } = .next t ∧
      t.outcomes = s.outcomes ++ [.ok (.words ws)]

/-- R62 item 4 with R73: under `STRICT`, a well-formed response with any one of its bits flipped, in a word or in a check byte,
fails with `ChecksumError` of exactly the group that holds the bit. -/
def Obligations.StrictLocatesEverySingleBitError : Prop :=
  ∀ (s : State) (ws : List Word) (rest : List ReadAnswer) (j bit : Nat), ws.length ≤ s.config.maxBlockWords →
    s.config.checkPolicy = .strict → j < 3 * ws.length → bit < 8 →
    ∃ t, exec (.readBlock ws.length) { s with
        readAnswers := .moved ((ws.flatMap responseGroup).set j
          ((ws.flatMap responseGroup).getD j 0 ^^^ (1#8 <<< bit))) :: rest } = .next t ∧
      t.outcomes = s.outcomes ++ [.err (.checksum (j / 3))]

/-- R70, corner case: where `READ_WORD` with `rs = 0` succeeds, a block of one word decodes as it does, but its result is a
one-element list. That the two also leave the same contents in `crc`, `tx` and `rx`, which R18 leaves unspecified, and the same
`fresh`, is the model's choice (logs 5 and 24: free values indexed by `fresh`). -/
def Obligations.BlockOfOneDecodesLikeAWord : Prop :=
  ∀ (s t : State) (w : Word), 1 ≤ s.config.maxBlockWords → exec (.readWord 0) s = .next t →
    t.outcomes = s.outcomes ++ [.ok (.word w)] →
    exec (.readBlock 1) s = .next { t with outcomes := s.outcomes ++ [.ok (.words [w])] }

/-- R32 with R22: an error or a short count is a failure, a full count is a success, and a successful read delivers exactly the
bytes moved, any sequence of the requested length. -/
def Obligations.ShortTransfersFailAndFullOnesSucceed : Prop :=
  (∀ (s : State) (frame : List Byte) (rest : List WriteAnswer), s.writeAnswers = .error :: rest →
    s.writeResult frame = .fail) ∧
  (∀ (s : State) (frame : List Byte) (k : Nat) (rest : List WriteAnswer), s.writeAnswers = .moved k :: rest →
    (k < frame.length → s.writeResult frame = .fail) ∧ (k = frame.length → s.writeResult frame = .ok)) ∧
  (∀ (s : State) (n : Nat) (rs : Bool) (rest : List ReadAnswer), s.readAnswers = .error :: rest →
    s.readResult n rs = .fail) ∧
  (∀ (s : State) (n : Nat) (rs : Bool) (bytes : List Byte) (rest : List ReadAnswer),
    s.readAnswers = .moved bytes :: rest →
    (bytes.length < n → s.readResult n rs = .fail) ∧ (bytes.length = n → s.readResult n rs = .ok bytes))

/-! ### Refusals and outcomes -/

/-- R53: the three reserved select codes, whatever the other fields, are refused as `ReservedOp`: no transaction, no event. -/
def Obligations.ReservedCodesAreRefused : Prop :=
  (∀ r : Request, (r.op = 0b101#3 → decode (.request r) = .ok .reservedOp5) ∧
    (r.op = 0b110#3 → decode (.request r) = .ok .reservedOp6) ∧
    (r.op = 0b111#3 → decode (.request r) = .ok .reservedOp7)) ∧
  ∀ s : State, ∀ i ∈ [Instr.reservedOp5, Instr.reservedOp6, Instr.reservedOp7],
    exec i s = .next { s with outcomes := s.outcomes ++ [.refused .reservedOp] }

/-- R84 with R87: a request that fails the check of its select code and operand ranges (`Instr.check`) is refused for the first
reason that applies, and changes nothing but that its outcome is delivered. -/
def Obligations.RefusedRequestsChangeNoState : Prop :=
  ∀ (i : Instr) (s : State) (r : RefuseReason), i.check s.config = some r →
    exec i s = .next { s with outcomes := s.outcomes ++ [.refused r] }

/-- R87: a request that passes both checks is never refused. -/
def Obligations.WellFormedRequestsAreNeverRefused : Prop :=
  ∀ (i : Instr) (s t : State) (r : RefuseReason), i.WellFormed s.config → exec i s = .next t →
    t.outcomes ≠ s.outcomes ++ [.refused r]

/-- R87 with R110: every operation, in every state, completes with exactly one outcome. -/
def Obligations.EveryOperationReturnsExactlyOneOutcome : Prop :=
  ∀ (i : Instr) (s : State), ∃ t outcome, exec i s = .next t ∧ t.outcomes = s.outcomes ++ [outcome]

/-- R82: a `TransportError(dir, n)` is delivered only with the failed transaction of that direction and length recorded, and
never by `CRC8`. -/
def Obligations.TransportErrorsRecordTheFailedTransaction : Prop :=
  ∀ (i : Instr) (s t : State) (dir : Dir) (n : Nat), exec i s = .next t →
    t.outcomes = s.outcomes ++ [.err (.transport dir n)] →
    (∀ v, i ≠ .crc8 v) ∧
    ((dir = .write ∧ ∃ frame, frame.length = n ∧ t.hist = s.hist ++ [.wr s.config.devAddr frame .fail]) ∨
      (dir = .read ∧ ∃ rs, t.hist = s.hist ++ [.rd s.config.devAddr n rs .fail]))

/-- R83: `ChecksumError(k)` occurs only under `STRICT`, only from the two read operations, with `k` below the number of groups
read, and always after a successful read. -/
def Obligations.ChecksumErrorsOnlyUnderStrictAfterASuccessfulRead : Prop :=
  ∀ (i : Instr) (s t : State) (k : Nat), exec i s = .next t →
    t.outcomes = s.outcomes ++ [.err (.checksum k)] →
    s.config.checkPolicy = .strict ∧
    ((∃ rs, i = .readWord rs ∧ k = 0) ∨ ∃ count, i = .readBlock count ∧ k < count) ∧
    ∃ n rs bytes, t.hist = s.hist ++ [.rd s.config.devAddr n rs (.ok bytes)]

/-- R85: the outcome codes. -/
def Obligations.OutcomeCodesAreNumberedZeroToFive : Prop :=
  (∀ r, outcomeCode (.ok r) = 0) ∧ (∀ dir n, outcomeCode (.err (.transport dir n)) = 1) ∧
    (∀ k, outcomeCode (.err (.checksum k)) = 2) ∧ outcomeCode (.refused .reservedOp) = 3 ∧
    (∀ field, outcomeCode (.refused (.operandRange field)) = 4) ∧ outcomeCode (.refused .blockCount) = 5

/-! ### History and hazard -/

/-- R103: a read that follows a successful write with no `Wait` between them sets `hazard`; with one `Wait` or more between them
it leaves `hazard`. -/
def Obligations.ReadHazardFollowsTheCommandDelay : Prop :=
  ∀ (s : State) (i : Instr) (h : List Event) (addr : BusAddr) (frame : List Byte),
    ((∃ rs, i = .readWord rs ∧ rs ≤ 1) ∨ ∃ count, i = .readBlock count ∧ 1 ≤ count ∧ count ≤ s.config.maxBlockWords) →
    (s.hist = h ++ [.wr addr frame .ok] → ∃ t, exec i s = .next t ∧ t.hazard = true) ∧
    ∀ j, s.hist = h ++ [.wr addr frame .ok] ++ List.replicate (j + 1) .wait →
      ∃ t, exec i s = .next t ∧ t.hazard = s.hazard

/-- R104: a write, successful or failed, sets `hazard` exactly when a sequence is open: a successful write of a response-bearing
command stands in the history with no read after it. Every well-formed instruction that writes a frame is covered. -/
def Obligations.InterleavedWriteSetsHazard : Prop :=
  ∀ (s : State) (i : Instr) (frame : List Byte), encodeFrame i = some frame →
    ∃ t, exec i s = .next t ∧ (SequenceOpen s.hist → t.hazard = true) ∧ (¬ SequenceOpen s.hist → t.hazard = s.hazard)

/-- R105: a read sets `hazard` when no transaction precedes it, when the latest one is a read, and when it is a failed write,
`Wait` events ignored. -/
def Obligations.ReadWithoutCommandSetsHazard : Prop :=
  ∀ (s : State) (i : Instr),
    ((∃ rs, i = .readWord rs ∧ rs ≤ 1) ∨ ∃ count, i = .readBlock count ∧ 1 ≤ count ∧ count ≤ s.config.maxBlockWords) →
    ((∃ j, s.hist = List.replicate j .wait) ∨
      (∃ h addr n rs result j, s.hist = h ++ [.rd addr n rs result] ++ List.replicate j .wait) ∨
      ∃ h addr frame j, s.hist = h ++ [.wr addr frame .fail] ++ List.replicate j .wait) →
    ∃ t, exec i s = .next t ∧ t.hazard = true

/-- R24: `hazard` is sticky. The only step that clears it is a power cycle, which is a reset. -/
def Obligations.HazardIsSticky : Prop :=
  ∀ s t : State, step s = .next t → s.hazard = true → (∀ rest, s.pending ≠ .powerCycle :: rest) → t.hazard = true

/-- R23 with R36: `hist` is append-only and a step adds at most one event; only a power cycle empties it. -/
def Obligations.HistoryOnlyGrowsByOneEvent : Prop :=
  ∀ s t : State, step s = .next t → (∀ rest, s.pending ≠ .powerCycle :: rest) →
    t.hist = s.hist ∨ ∃ e, t.hist = s.hist ++ [e]

/-- R23, R24 and R106: no operation reads `hist` or `hazard` to compute a result. With the transport's answers given, a run from
another history and another hazard bit differs in nothing but those two. That both runs also leave the same contents in `crc`,
`tx` and `rx`, which R18 leaves unspecified, and the same `fresh`, is the model's choice (logs 5 and 24: free values indexed by
`fresh`). -/
def Obligations.HistoryAndHazardChangeNoResult : Prop :=
  ∀ (i : Instr) (s t : State) (hist : List Event) (hazard : Bool), s.writeAnswers ≠ [] → s.readAnswers ≠ [] →
    exec i s = .next t →
    ∃ hist' hazard', exec i { s with hist := hist, hazard := hazard } = .next { t with hist := hist', hazard := hazard' }

/-- R18: no operation reads a value a datapath register kept from an earlier operation. That both runs leave the same `fresh` is
the model's choice (log 24). -/
def Obligations.OperationsIgnoreEarlierRegisterContents : Prop :=
  ∀ (i : Instr) (s t : State) (crc : Byte) (tx rx : List Byte), exec i s = .next t →
    ∃ crc' tx' rx', exec i { s with crc := crc, tx := tx, rx := rx } = .next { t with crc := crc', tx := tx', rx := rx' }

/-- R103 to R106, the invariant: `hazard` is 0 exactly when the host kept every obligation over the whole history, and every step
keeps it so. -/
def Obligations.StepKeepsHazardExact : Prop :=
  ∀ s t : State, s.HazardExact → step s = .next t → t.HazardExact

/-- R99 and R106: after reset `hazard` is exact, for every configuration. -/
def Obligations.ResetHazardIsExact : Prop :=
  ∀ c : Configuration, (State.resetWith c).HazardExact

/-! ### The whole machine -/

/-- R6, R18, R19, R31 and R32, the invariant: every transaction in the history targets `DEV_ADDR` and has a legal length, a
successful read delivered exactly the bytes it asked for, the buffers have legal lengths, and every step keeps it so. -/
def Obligations.StepKeepsTheShapeOfTheState : Prop :=
  ∀ s t : State, s.Shape → step s = .next t → t.Shape

/-- The reset state of every legal configuration has that shape; the lengths of `tx` and `rx` there are the model's choice
(log 7). -/
def Obligations.ResetHasTheShape : Prop :=
  ∀ c : Configuration, c.Legal → (State.resetWith c).Shape

/-- R99: after reset the history is empty, `hazard` is 0 and the configuration is the instantiation's, with `DEV_ADDR = 0x62` and
`CHECK_POLICY = LENIENT` by default. -/
def Obligations.ResetClearsHistoryAndHazard : Prop :=
  (∀ c : Configuration, (State.resetWith c).hist = [] ∧ (State.resetWith c).hazard = false ∧
    (State.resetWith c).config = c) ∧
  State.reset.hist = [] ∧ State.reset.hazard = false ∧ State.reset.config.devAddr = 0x62#7 ∧
    State.reset.config.checkPolicy = .lenient

/-- R19: the configuration is fixed at instantiation; no step, the power cycle included, changes it. -/
def Obligations.ConfigurationNeverChanges : Prop :=
  ∀ s t : State, step s = .next t → t.config = s.config

/-- R88 and R110: a step always completes. It has no next state only where the host names a device command that is no row of
the opcode table, which the model refuses by name (the model's choice, log 14). -/
def Obligations.StepsAlwaysComplete : Prop :=
  (∀ s : State, (∃ t, step s = .next t) ∨
    ∃ opcode operands rest why, s.pending = .submit (.command opcode operands) :: rest ∧
      decode (.command opcode operands) = .error why ∧ step s = .refused (.undecodable why)) ∧
  ∀ (s : State) (opcode : Word) (operands : List Nat) (rest : List HostAction),
    s.pending = .submit (.command opcode operands) :: rest →
    opcode ∉ [0xE4B8#16, 0xEC05#16, 0x21B1#16, 0x3F86#16, 0x362F#16, 0x3632#16] →
    step s = .refused (.undecodable (.unlistedOpcode opcode))

/-- A step runs the decoded instruction: where the host's next action decodes to `i`, the step is `exec i` on the state with that
action taken. -/
def Obligations.StepRunsTheDecodedInstruction : Prop :=
  ∀ (s : State) (e : Encoded) (i : Instr) (rest : List HostAction), s.pending = .submit e :: rest →
    decode e = .ok i → step s = exec i { s with pending := rest }

/-- R102: `WAIT` appends `Wait` to `hist`, makes no transaction, returns nothing, cannot fail and changes no other state. -/
def Obligations.WaitAppendsOneEventAndNothingElse : Prop :=
  ∀ (s : State) (rest : List HostAction), s.pending = .wait :: rest →
    step s = .next { s with pending := rest, hist := s.hist ++ [.wait] }

/-- R100 and R98: a power cycle is a reset of the block with the configuration of its instantiation. That the inputs from outside
stay and the record of outcomes is emptied is the model's choice (log 16); the datapath registers are unspecified. -/
def Obligations.PowerCycleIsAReset : Prop :=
  ∀ (s : State) (rest : List HostAction), s.pending = .powerCycle :: rest → ∃ crc tx rx fresh,
    step s = .next { State.resetWith s.config with
      crc := crc
      tx := tx
      rx := rx
      fresh := fresh
      pending := rest
      writeAnswers := s.writeAnswers
      readAnswers := s.readAnswers }

/-- With no action of the host pending, a step changes nothing. This is the model's choice (log 2). -/
def Obligations.NoRequestChangesNothing : Prop :=
  ∀ s : State, s.pending = [] → step s = .next s

/-! ### Encoding -/

/-- R43: the select code of a request record picks the operation, with the fields that operation reads. -/
def Obligations.SelectCodePicksTheOperation : Prop :=
  ∀ opcode param value rs count : Nat,
    decode (.request ⟨0b000, opcode, param, value, rs, count⟩) = .ok (.crc8 value) ∧
    decode (.request ⟨0b001, opcode, param, value, rs, count⟩) = .ok (.sendPlain opcode) ∧
    decode (.request ⟨0b010, opcode, param, value, rs, count⟩) = .ok (.sendParam opcode param) ∧
    decode (.request ⟨0b011, opcode, param, value, rs, count⟩) = .ok (.readWord rs) ∧
    decode (.request ⟨0b100, opcode, param, value, rs, count⟩) = .ok (.readBlock count) ∧
    decode (.request ⟨0b101, opcode, param, value, rs, count⟩) = .ok .reservedOp5 ∧
    decode (.request ⟨0b110, opcode, param, value, rs, count⟩) = .ok .reservedOp6 ∧
    decode (.request ⟨0b111, opcode, param, value, rs, count⟩) = .ok .reservedOp7

/-- R51 and R43: words written out from the opcode map and the select codes decode to their instructions. A sanity statement. The
layout `decodeTableWord` reads, a `REQ` row as one byte with its operands 0 and a bare `CALIBRATE` word with the parameter 0, is
the model's choice (log 13), and so are the operands in `calibrate 0` and `crc8 0`. -/
def Obligations.OpcodeWordsDecodeToTheirCommands : Prop :=
  decodeTableWord 16 0xE4B8 = some .dataReadyQuery ∧ decodeTableWord 16 0xEC05 = some .readMeasurements ∧
    decodeTableWord 16 0x21B1 = some .startCont ∧ decodeTableWord 16 0x3F86 = some .stopCont ∧
    decodeTableWord 16 0x362F = some (.calibrate 0) ∧ decodeTableWord 16 0x3632 = some .factoryReset ∧
    decodeTableWord 8 0b000 = some (.crc8 0) ∧ decodeTableWord 8 0b111 = some .reservedOp7

/-- R42, R43 and R51: every instruction's encoding decodes to that instruction, with every operand. -/
def Obligations.EncodedInstructionsDecodeBack : Prop :=
  ∀ i : Instr, decode (encode i) = .ok i

/-- R45, R46 and R50: the wire frame of every well-formed write decodes, from its bytes alone, to an instruction with the same
frame and the same effect (to that very instruction for the six device commands), and every byte sequence that decodes is the
frame of what it decodes to. That a listed opcode's frame reads back as the device command, and the whole second clause, that only
frames of 2 bytes or of 5 with the right check byte decode, are the model's choice (log 22). -/
def Obligations.WriteFramesRoundTrip : Prop :=
  (∀ (i : Instr) (frame : List Byte), encodeFrame i = some frame →
    ∃ j, decodeFrame frame = .ok j ∧ encodeFrame j = some frame ∧ (∀ s : State, exec j s = exec i s) ∧
      ((∃ p, i ∈ [.dataReadyQuery, .readMeasurements, .startCont, .stopCont, .calibrate p, .factoryReset]) → j = i)) ∧
  ∀ (bytes : List Byte) (i : Instr), decodeFrame bytes = .ok i → encodeFrame i = some bytes
end

