-- ==== Sys2Proof/Laws/Crc.lean ====
section
/-! SUPPORT. Bytes of a word and the linearity of the CRC over XOR. -/

namespace Sys2Proof.Machine

@[simp] theorem hiByte_append (x y : Byte) : hiByte (x ++ y) = x := BitVec.extractLsb'_append_eq_left

@[simp] theorem loByte_append (x y : Byte) : loByte (x ++ y) = y := BitVec.extractLsb'_append_eq_right

/-- A word is its two bytes (R49). -/
@[simp] theorem hiByte_append_loByte (w : Word) : hiByte w ++ loByte w = w := by
  ext i hi
  simp only [hiByte, loByte, BitVec.getElem_append, BitVec.getElem_extractLsb']
  split
  · simp [BitVec.getLsbD_eq_getElem hi]
  · rw [show 8 + (i - 8) = i by omega]
    simp [BitVec.getLsbD_eq_getElem hi]

theorem hiByte_xor (a b : Word) : hiByte (a ^^^ b) = hiByte a ^^^ hiByte b := by
  ext i hi
  simp [hiByte]

theorem loByte_xor (a b : Word) : loByte (a ^^^ b) = loByte a ^^^ loByte b := by
  ext i hi
  simp [loByte]

/-- The bit step is linear over XOR. -/
theorem crcBit_xor (a b : Byte) : crcBit (a ^^^ b) = crcBit a ^^^ crcBit b := by
  simp only [crcBit, BitVec.getLsbD_xor]
  cases a.getLsbD 7 <;> cases b.getLsbD 7 <;> simp [BitVec.shiftLeft_xor_distrib] <;> ext i hi <;>
    simp [crcPoly] <;> grind

theorem crcBits_xor (n : Nat) (a b : Byte) : crcBits n (a ^^^ b) = crcBits n a ^^^ crcBits n b := by
  induction n generalizing a b with
  | zero => rfl
  | succ n ih => simp only [crcBits, crcBit_xor, ih]

/-- The checksum as the XOR of what each byte and the initial value contribute. -/
theorem crc8_eq_xor (v : Word) : crc8 v = crcBits 16 (hiByte v) ^^^ crcBits 8 (loByte v) ^^^ crcBits 16 0xFF := by
  have add : ∀ c, crcBits 8 (crcBits 8 c) = crcBits 16 c := fun _ => rfl
  simp only [crc8, crcByte, crcBits_xor, add, crcInit]
  ext i hi
  simp
  grind

/-- Eight bit steps map only zero to zero. -/
theorem crcBits_eight_eq_zero : ∀ b : Byte, crcBits 8 b = 0 → b = 0 := by decide +kernel

/-- The one word of a 3-byte buffer (R69). -/
theorem words_one (b0 b1 b2 : Byte) : words [b0, b1, b2] 1 = [b0 ++ b1] := rfl

end Sys2Proof.Machine
end

