-- ==== Sys2Proof/Laws/State.lean ====
section
/-! SUPPORT. The field lemmas of the state updates: for each update of `Machine/Ops.lean`, what it makes of every field. -/

namespace Sys2Proof.Machine

variable (s : State)

@[simp] theorem State.loadCrc_crc (c : Byte) : (s.loadCrc c).crc = c := rfl
@[simp] theorem State.loadCrc_tx (c : Byte) : (s.loadCrc c).tx = s.tx := rfl
@[simp] theorem State.loadCrc_rx (c : Byte) : (s.loadCrc c).rx = s.rx := rfl
@[simp] theorem State.loadCrc_config (c : Byte) : (s.loadCrc c).config = s.config := rfl
@[simp] theorem State.loadCrc_hist (c : Byte) : (s.loadCrc c).hist = s.hist := rfl
@[simp] theorem State.loadCrc_hazard (c : Byte) : (s.loadCrc c).hazard = s.hazard := rfl
@[simp] theorem State.loadCrc_pending (c : Byte) : (s.loadCrc c).pending = s.pending := rfl
@[simp] theorem State.loadCrc_writeAnswers (c : Byte) : (s.loadCrc c).writeAnswers = s.writeAnswers := rfl
@[simp] theorem State.loadCrc_readAnswers (c : Byte) : (s.loadCrc c).readAnswers = s.readAnswers := rfl
@[simp] theorem State.loadCrc_outcomes (c : Byte) : (s.loadCrc c).outcomes = s.outcomes := rfl
@[simp] theorem State.loadCrc_fresh (c : Byte) : (s.loadCrc c).fresh = s.fresh := rfl

@[simp] theorem State.absorb_crc (b : Byte) : (s.absorb b).crc = crcByte s.crc b := rfl
@[simp] theorem State.absorb_tx (b : Byte) : (s.absorb b).tx = s.tx := rfl
@[simp] theorem State.absorb_rx (b : Byte) : (s.absorb b).rx = s.rx := rfl
@[simp] theorem State.absorb_config (b : Byte) : (s.absorb b).config = s.config := rfl
@[simp] theorem State.absorb_hist (b : Byte) : (s.absorb b).hist = s.hist := rfl
@[simp] theorem State.absorb_hazard (b : Byte) : (s.absorb b).hazard = s.hazard := rfl
@[simp] theorem State.absorb_pending (b : Byte) : (s.absorb b).pending = s.pending := rfl
@[simp] theorem State.absorb_writeAnswers (b : Byte) : (s.absorb b).writeAnswers = s.writeAnswers := rfl
@[simp] theorem State.absorb_readAnswers (b : Byte) : (s.absorb b).readAnswers = s.readAnswers := rfl
@[simp] theorem State.absorb_outcomes (b : Byte) : (s.absorb b).outcomes = s.outcomes := rfl
@[simp] theorem State.absorb_fresh (b : Byte) : (s.absorb b).fresh = s.fresh := rfl

@[simp] theorem State.loadTx_crc (f : List Byte) : (s.loadTx f).crc = s.crc := rfl
@[simp] theorem State.loadTx_tx (f : List Byte) : (s.loadTx f).tx = f := rfl
@[simp] theorem State.loadTx_rx (f : List Byte) : (s.loadTx f).rx = s.rx := rfl
@[simp] theorem State.loadTx_config (f : List Byte) : (s.loadTx f).config = s.config := rfl
@[simp] theorem State.loadTx_hist (f : List Byte) : (s.loadTx f).hist = s.hist := rfl
@[simp] theorem State.loadTx_hazard (f : List Byte) : (s.loadTx f).hazard = s.hazard := rfl
@[simp] theorem State.loadTx_pending (f : List Byte) : (s.loadTx f).pending = s.pending := rfl
@[simp] theorem State.loadTx_writeAnswers (f : List Byte) : (s.loadTx f).writeAnswers = s.writeAnswers := rfl
@[simp] theorem State.loadTx_readAnswers (f : List Byte) : (s.loadTx f).readAnswers = s.readAnswers := rfl
@[simp] theorem State.loadTx_outcomes (f : List Byte) : (s.loadTx f).outcomes = s.outcomes := rfl
@[simp] theorem State.loadTx_fresh (f : List Byte) : (s.loadTx f).fresh = s.fresh := rfl

@[simp] theorem State.loadRx_crc (b : List Byte) : (s.loadRx b).crc = s.crc := rfl
@[simp] theorem State.loadRx_tx (b : List Byte) : (s.loadRx b).tx = s.tx := rfl
@[simp] theorem State.loadRx_rx (b : List Byte) : (s.loadRx b).rx = b := rfl
@[simp] theorem State.loadRx_config (b : List Byte) : (s.loadRx b).config = s.config := rfl
@[simp] theorem State.loadRx_hist (b : List Byte) : (s.loadRx b).hist = s.hist := rfl
@[simp] theorem State.loadRx_hazard (b : List Byte) : (s.loadRx b).hazard = s.hazard := rfl
@[simp] theorem State.loadRx_pending (b : List Byte) : (s.loadRx b).pending = s.pending := rfl
@[simp] theorem State.loadRx_writeAnswers (b : List Byte) : (s.loadRx b).writeAnswers = s.writeAnswers := rfl
@[simp] theorem State.loadRx_readAnswers (b : List Byte) : (s.loadRx b).readAnswers = s.readAnswers := rfl
@[simp] theorem State.loadRx_outcomes (b : List Byte) : (s.loadRx b).outcomes = s.outcomes := rfl
@[simp] theorem State.loadRx_fresh (b : List Byte) : (s.loadRx b).fresh = s.fresh := rfl

@[simp] theorem State.discardCrc_crc : s.discardCrc.crc = Config.freeCrc s.fresh := rfl
@[simp] theorem State.discardCrc_tx : s.discardCrc.tx = s.tx := rfl
@[simp] theorem State.discardCrc_rx : s.discardCrc.rx = s.rx := rfl
@[simp] theorem State.discardCrc_config : s.discardCrc.config = s.config := rfl
@[simp] theorem State.discardCrc_hist : s.discardCrc.hist = s.hist := rfl
@[simp] theorem State.discardCrc_hazard : s.discardCrc.hazard = s.hazard := rfl
@[simp] theorem State.discardCrc_pending : s.discardCrc.pending = s.pending := rfl
@[simp] theorem State.discardCrc_writeAnswers : s.discardCrc.writeAnswers = s.writeAnswers := rfl
@[simp] theorem State.discardCrc_readAnswers : s.discardCrc.readAnswers = s.readAnswers := rfl
@[simp] theorem State.discardCrc_outcomes : s.discardCrc.outcomes = s.outcomes := rfl
@[simp] theorem State.discardCrc_fresh : s.discardCrc.fresh = s.fresh + 1 := rfl

@[simp] theorem State.discardTx_crc : s.discardTx.crc = s.crc := rfl
@[simp] theorem State.discardTx_tx : s.discardTx.tx = freeTx s.fresh := rfl
@[simp] theorem State.discardTx_rx : s.discardTx.rx = s.rx := rfl
@[simp] theorem State.discardTx_config : s.discardTx.config = s.config := rfl
@[simp] theorem State.discardTx_hist : s.discardTx.hist = s.hist := rfl
@[simp] theorem State.discardTx_hazard : s.discardTx.hazard = s.hazard := rfl
@[simp] theorem State.discardTx_pending : s.discardTx.pending = s.pending := rfl
@[simp] theorem State.discardTx_writeAnswers : s.discardTx.writeAnswers = s.writeAnswers := rfl
@[simp] theorem State.discardTx_readAnswers : s.discardTx.readAnswers = s.readAnswers := rfl
@[simp] theorem State.discardTx_outcomes : s.discardTx.outcomes = s.outcomes := rfl
@[simp] theorem State.discardTx_fresh : s.discardTx.fresh = s.fresh + 1 := rfl

@[simp] theorem State.discardRx_crc : s.discardRx.crc = s.crc := rfl
@[simp] theorem State.discardRx_tx : s.discardRx.tx = s.tx := rfl
@[simp] theorem State.discardRx_rx : s.discardRx.rx = freeRx s.fresh s.config.maxBlockWords := rfl
@[simp] theorem State.discardRx_config : s.discardRx.config = s.config := rfl
@[simp] theorem State.discardRx_hist : s.discardRx.hist = s.hist := rfl
@[simp] theorem State.discardRx_hazard : s.discardRx.hazard = s.hazard := rfl
@[simp] theorem State.discardRx_pending : s.discardRx.pending = s.pending := rfl
@[simp] theorem State.discardRx_writeAnswers : s.discardRx.writeAnswers = s.writeAnswers := rfl
@[simp] theorem State.discardRx_readAnswers : s.discardRx.readAnswers = s.readAnswers := rfl
@[simp] theorem State.discardRx_outcomes : s.discardRx.outcomes = s.outcomes := rfl
@[simp] theorem State.discardRx_fresh : s.discardRx.fresh = s.fresh + 1 := rfl

@[simp] theorem State.record_crc (e : Event) : (s.record e).crc = s.crc := rfl
@[simp] theorem State.record_tx (e : Event) : (s.record e).tx = s.tx := rfl
@[simp] theorem State.record_rx (e : Event) : (s.record e).rx = s.rx := rfl
@[simp] theorem State.record_config (e : Event) : (s.record e).config = s.config := rfl
@[simp] theorem State.record_hist (e : Event) : (s.record e).hist = s.hist ++ [e] := rfl
@[simp] theorem State.record_hazard (e : Event) : (s.record e).hazard = (s.hazard || breaksObligation s.hist e) := rfl
@[simp] theorem State.record_pending (e : Event) : (s.record e).pending = s.pending := rfl
@[simp] theorem State.record_writeAnswers (e : Event) : (s.record e).writeAnswers = s.writeAnswers := rfl
@[simp] theorem State.record_readAnswers (e : Event) : (s.record e).readAnswers = s.readAnswers := rfl
@[simp] theorem State.record_outcomes (e : Event) : (s.record e).outcomes = s.outcomes := rfl
@[simp] theorem State.record_fresh (e : Event) : (s.record e).fresh = s.fresh := rfl

@[simp] theorem State.deliver_crc (o : OpOutcome) : (s.deliver o).crc = s.crc := rfl
@[simp] theorem State.deliver_tx (o : OpOutcome) : (s.deliver o).tx = s.tx := rfl
@[simp] theorem State.deliver_rx (o : OpOutcome) : (s.deliver o).rx = s.rx := rfl
@[simp] theorem State.deliver_config (o : OpOutcome) : (s.deliver o).config = s.config := rfl
@[simp] theorem State.deliver_hist (o : OpOutcome) : (s.deliver o).hist = s.hist := rfl
@[simp] theorem State.deliver_hazard (o : OpOutcome) : (s.deliver o).hazard = s.hazard := rfl
@[simp] theorem State.deliver_pending (o : OpOutcome) : (s.deliver o).pending = s.pending := rfl
@[simp] theorem State.deliver_writeAnswers (o : OpOutcome) : (s.deliver o).writeAnswers = s.writeAnswers := rfl
@[simp] theorem State.deliver_readAnswers (o : OpOutcome) : (s.deliver o).readAnswers = s.readAnswers := rfl
@[simp] theorem State.deliver_outcomes (o : OpOutcome) : (s.deliver o).outcomes = s.outcomes ++ [o] := rfl
@[simp] theorem State.deliver_fresh (o : OpOutcome) : (s.deliver o).fresh = s.fresh := rfl

@[simp] theorem State.takeWriteAnswer_crc : s.takeWriteAnswer.crc = s.crc := rfl
@[simp] theorem State.takeWriteAnswer_tx : s.takeWriteAnswer.tx = s.tx := rfl
@[simp] theorem State.takeWriteAnswer_rx : s.takeWriteAnswer.rx = s.rx := rfl
@[simp] theorem State.takeWriteAnswer_config : s.takeWriteAnswer.config = s.config := rfl
@[simp] theorem State.takeWriteAnswer_hist : s.takeWriteAnswer.hist = s.hist := rfl
@[simp] theorem State.takeWriteAnswer_hazard : s.takeWriteAnswer.hazard = s.hazard := rfl
@[simp] theorem State.takeWriteAnswer_pending : s.takeWriteAnswer.pending = s.pending := rfl
@[simp] theorem State.takeWriteAnswer_writeAnswers : s.takeWriteAnswer.writeAnswers = s.writeAnswers.tail := rfl
@[simp] theorem State.takeWriteAnswer_readAnswers : s.takeWriteAnswer.readAnswers = s.readAnswers := rfl
@[simp] theorem State.takeWriteAnswer_outcomes : s.takeWriteAnswer.outcomes = s.outcomes := rfl
@[simp] theorem State.takeWriteAnswer_fresh : s.takeWriteAnswer.fresh = s.fresh + 1 := rfl

@[simp] theorem State.takeReadAnswer_crc : s.takeReadAnswer.crc = s.crc := rfl
@[simp] theorem State.takeReadAnswer_tx : s.takeReadAnswer.tx = s.tx := rfl
@[simp] theorem State.takeReadAnswer_rx : s.takeReadAnswer.rx = s.rx := rfl
@[simp] theorem State.takeReadAnswer_config : s.takeReadAnswer.config = s.config := rfl
@[simp] theorem State.takeReadAnswer_hist : s.takeReadAnswer.hist = s.hist := rfl
@[simp] theorem State.takeReadAnswer_hazard : s.takeReadAnswer.hazard = s.hazard := rfl
@[simp] theorem State.takeReadAnswer_pending : s.takeReadAnswer.pending = s.pending := rfl
@[simp] theorem State.takeReadAnswer_writeAnswers : s.takeReadAnswer.writeAnswers = s.writeAnswers := rfl
@[simp] theorem State.takeReadAnswer_readAnswers : s.takeReadAnswer.readAnswers = s.readAnswers.tail := rfl
@[simp] theorem State.takeReadAnswer_outcomes : s.takeReadAnswer.outcomes = s.outcomes := rfl
@[simp] theorem State.takeReadAnswer_fresh : s.takeReadAnswer.fresh = s.fresh + 1 := rfl

@[simp] theorem State.raise_eq (e : OpError) : s.raise e = s.deliver (.err e) := rfl

@[simp] theorem State.refuse_eq (r : RefuseReason) : s.refuse r = s.deliver (.refused r) := rfl

@[simp] theorem State.accept_eq (r : OpResult) : s.accept r = s.deliver (.ok r) := rfl

@[simp] theorem State.wait_eq : s.wait = s.record .wait := rfl

end Sys2Proof.Machine
end

