-- ==== Sys2Proof/Laws/Ops.lean ====
section
/-! SUPPORT. One lemma for each shared operation that says everything it does; later proofs cite these and unfold nothing. -/

namespace Sys2Proof.Machine

variable (s : State)

/-- The Checksum Unit leaves `CRC8(v)` in `crc` and touches nothing else. -/
theorem State.runCrc_eq (v : Word) : s.runCrc v = { s with crc := crc8 v } := rfl

@[simp] theorem State.runCrc_crc (v : Word) : (s.runCrc v).crc = crc8 v := rfl

@[simp] theorem State.runCrc_rx (v : Word) : (s.runCrc v).rx = s.rx := rfl

/-- Everything one write transaction does. -/
theorem State.sendFrame_eq (frame : List Byte) :
    s.sendFrame frame =
      { s with
        tx := freeTx (s.fresh + 1)
        hist := s.hist ++ [.wr s.config.devAddr frame (s.writeResult frame)]
        hazard := s.hazard || sequenceOpen s.hist
        writeAnswers := s.writeAnswers.tail
        outcomes := s.outcomes ++ [writeOutcome frame.length (s.writeResult frame)]
        fresh := s.fresh + 2 } := rfl

/-- A given answer decides a write. -/
theorem State.writeResult_of_answer {a : WriteAnswer} {rest : List WriteAnswer} (h : s.writeAnswers = a :: rest)
    (frame : List Byte) : s.writeResult frame = writeResultOf frame.length a := by
  simp only [State.writeResult, State.writeAnswer, h]

/-- A given answer decides a read. -/
theorem State.readResult_of_answer {a : ReadAnswer} {rest : List ReadAnswer} (h : s.readAnswers = a :: rest)
    (n : Nat) (rs : Bool) : s.readResult n rs = readResultOf n a := by
  simp only [State.readResult, State.readAnswer, h]

/-- A successful read delivers exactly the bytes it asked for (R22). -/
theorem length_of_readResultOf {n : Nat} {a : ReadAnswer} {bytes : List Byte} (h : readResultOf n a = .ok bytes) :
    bytes.length = n := by
  cases a with
  | error => simp [readResultOf] at h
  | moved given =>
    simp only [readResultOf] at h
    split at h
    · cases h
    · injection h with h
      subst h
      simp only [List.length_take]
      omega

theorem State.length_of_readResult {n : Nat} {rs : Bool} {bytes : List Byte} (h : s.readResult n rs = .ok bytes) :
    bytes.length = n :=
  length_of_readResultOf h

/-- One group of the `STRICT` check: a group that passes leaves the verdict to the groups after it. -/
theorem State.strictCheck_pass {n k : Nat} (good : crc8 (wordAt s.rx k) = checkAt s.rx k) :
    State.strictCheck (n + 1) k s = State.strictCheck n (k + 1) (s.runCrc (wordAt s.rx k)) :=
  if_pos good

/-- One group of the `STRICT` check: a group that fails is named. -/
theorem State.strictCheck_stop {n k : Nat} (bad : ¬ crc8 (wordAt s.rx k) = checkAt s.rx k) :
    State.strictCheck (n + 1) k s = (s.runCrc (wordAt s.rx k), some k) :=
  if_neg bad

/-- The `STRICT` check changes nothing but `crc`. -/
theorem State.strictCheck_state (n k : Nat) :
    (State.strictCheck n k s).1 = { s with crc := (State.strictCheck n k s).1.crc } := by
  induction n generalizing k s with
  | zero => rfl
  | succ n ih =>
    by_cases good : crc8 (wordAt s.rx k) = checkAt s.rx k
    · rw [State.strictCheck_pass s good, ih]
      rfl
    · rw [State.strictCheck_stop s good]
      rfl

/-- The `STRICT` check passes exactly when every group's check byte is the `CRC8` of its word (R73). -/
theorem State.strictCheck_none (n k : Nat) :
    (State.strictCheck n k s).2 = none ↔ ∀ j, k ≤ j → j < k + n → crc8 (wordAt s.rx j) = checkAt s.rx j := by
  induction n generalizing k s with
  | zero => exact ⟨fun _ j h1 h2 => by omega, fun _ => rfl⟩
  | succ n ih =>
    by_cases good : crc8 (wordAt s.rx k) = checkAt s.rx k
    · rw [State.strictCheck_pass s good, ih, State.runCrc_rx]
      constructor
      · intro h j h1 h2
        rcases Nat.eq_or_lt_of_le h1 with rfl | h3
        · exact good
        · exact h j h3 (by omega)
      · intro h j h1 h2
        exact h j (by omega) (by omega)
    · rw [State.strictCheck_stop s good]
      constructor
      · intro h
        cases h
      · intro h
        exact absurd (h k (Nat.le_refl k) (by omega)) good

/-- The `STRICT` check names the lowest group whose check byte is wrong (R73). -/
theorem State.strictCheck_some (n k m : Nat) :
    (State.strictCheck n k s).2 = some m ↔
      (k ≤ m ∧ m < k + n) ∧ crc8 (wordAt s.rx m) ≠ checkAt s.rx m ∧
        ∀ j, k ≤ j → j < m → crc8 (wordAt s.rx j) = checkAt s.rx j := by
  induction n generalizing k s with
  | zero =>
    constructor
    · intro h
      cases h
    · rintro ⟨⟨h1, h2⟩, -⟩
      omega
  | succ n ih =>
    by_cases good : crc8 (wordAt s.rx k) = checkAt s.rx k
    · rw [State.strictCheck_pass s good, ih, State.runCrc_rx]
      constructor
      · rintro ⟨⟨h1, h2⟩, bad, below⟩
        refine ⟨⟨by omega, by omega⟩, bad, fun j h3 h4 => ?_⟩
        rcases Nat.eq_or_lt_of_le h3 with rfl | h5
        · exact good
        · exact below j h5 h4
      · rintro ⟨⟨h1, h2⟩, bad, below⟩
        have hne : k ≠ m := by
          rintro rfl
          exact bad good
        exact ⟨⟨by omega, by omega⟩, bad, fun j h3 h4 => below j (by omega) h4⟩
    · rw [State.strictCheck_stop s good]
      constructor
      · intro h
        injection h with h
        subst h
        exact ⟨⟨Nat.le_refl _, by omega⟩, good, fun j h3 h4 => absurd h3 (by omega)⟩
      · rintro ⟨⟨h1, h2⟩, -, below⟩
        rcases Nat.eq_or_lt_of_le h1 with rfl | h3
        · rfl
        · exact absurd (below k (Nat.le_refl k) h3) good

/-- A `STRICT` verdict depends on the received bytes alone. -/
theorem State.strictCheck_congr {a b : State} (h : a.rx = b.rx) (n k : Nat) :
    (State.strictCheck n k a).2 = (State.strictCheck n k b).2 := by
  cases hb : (State.strictCheck n k b).2 with
  | none =>
    rw [State.strictCheck_none] at hb ⊢
    rw [h]
    exact hb
  | some m =>
    rw [State.strictCheck_some] at hb ⊢
    rw [h]
    exact hb

/-- Everything a failed read does (R74, R82, R88). -/
theorem State.readGroups_fail {count : Nat} {rs : Bool} (pack : List Word → OpResult)
    (h : s.readResult (readLength count) rs = .fail) :
    s.readGroups count rs pack =
      { s with
        rx := freeRx (s.fresh + 1) s.config.maxBlockWords
        hist := s.hist ++ [.rd s.config.devAddr (readLength count) rs .fail]
        hazard := s.hazard || (endsInWriteWithoutWait s.hist || noCommandPending s.hist)
        readAnswers := s.readAnswers.tail
        outcomes := s.outcomes ++ [.err (.transport .read (readLength count))]
        fresh := s.fresh + 2 } := by
  simp only [State.readGroups, h]
  rfl

/-- Everything a successful read does under `LENIENT` (R72). -/
theorem State.readGroups_lenient {count : Nat} {rs : Bool} {bytes : List Byte} (pack : List Word → OpResult)
    (hp : s.config.checkPolicy = .lenient) (h : s.readResult (readLength count) rs = .ok bytes) :
    s.readGroups count rs pack =
      { s with
        rx := freeRx (s.fresh + 1) s.config.maxBlockWords
        hist := s.hist ++ [.rd s.config.devAddr (readLength count) rs (.ok bytes)]
        hazard := s.hazard || (endsInWriteWithoutWait s.hist || noCommandPending s.hist)
        readAnswers := s.readAnswers.tail
        outcomes := s.outcomes ++ [.ok (pack (words bytes count))]
        fresh := s.fresh + 2 } := by
  have hp' : ((s.busRead (readLength count) rs (.ok bytes)).loadRx bytes).config.checkPolicy = .lenient := hp
  simp only [State.readGroups, h, State.decodeGroups, State.checkGroups, hp']
  rfl

/-- The outcome of a `STRICT` check whose verdict is `bad`. -/
def strictOutcome (bad : Option Nat) (r : OpResult) : OpOutcome :=
  match bad with
  | some k => .err (.checksum k)
  | none => .ok r

/-- Everything a successful read does under `STRICT` (R73): the verdict `bad` is `strictCheck`'s on the bytes received, which
`strictCheck_none` and `strictCheck_some` describe. -/
theorem State.readGroups_strict {count : Nat} {rs : Bool} {bytes : List Byte} (pack : List Word → OpResult)
    (hp : s.config.checkPolicy = .strict) (h : s.readResult (readLength count) rs = .ok bytes) :
    s.readGroups count rs pack =
      { s with
        crc := Config.freeCrc (s.fresh + 1)
        rx := freeRx (s.fresh + 2) s.config.maxBlockWords
        hist := s.hist ++ [.rd s.config.devAddr (readLength count) rs (.ok bytes)]
        hazard := s.hazard || (endsInWriteWithoutWait s.hist || noCommandPending s.hist)
        readAnswers := s.readAnswers.tail
        outcomes := s.outcomes ++ [strictOutcome (State.strictCheck count 0 (s.loadRx bytes)).2 (pack (words bytes count))]
        fresh := s.fresh + 3 } := by
  have hp' : ((s.busRead (readLength count) rs (.ok bytes)).loadRx bytes).config.checkPolicy = .strict := hp
  have verdict := State.strictCheck_congr
    (show ((s.busRead (readLength count) rs (.ok bytes)).loadRx bytes).rx = (s.loadRx bytes).rx from rfl) count 0
  simp only [State.readGroups, h, State.decodeGroups, State.checkGroups, hp', verdict]
  rw [State.strictCheck_state]
  cases (State.strictCheck count 0 (s.loadRx bytes)).2 <;> rfl

/-- The free contents of `tx` have a legal length (R18). -/
theorem length_freeTx (k : Nat) : (freeTx k).length = 0 ∨ (freeTx k).length = 2 ∨ (freeTx k).length = 5 := by
  simp only [freeTx, List.length_map, List.length_range]
  generalize Config.freeTxLength k = l
  revert l
  decide

/-- The free contents of `rx` have a legal length (R18). -/
theorem length_freeRx (k : Nat) {maxWords : Nat} (h : 0 < maxWords) :
    (freeRx k maxWords).length % 3 = 0 ∧ 3 ≤ (freeRx k maxWords).length ∧ (freeRx k maxWords).length ≤ 3 * maxWords := by
  have hlt := Nat.mod_lt (Config.freeRxCount k) h
  simp only [freeRx, readLength, List.length_map, List.length_range]
  omega

@[simp] theorem lastTransaction_append (h : List Event) (e : Event) :
    lastTransaction (h ++ [e]) = if isTransaction e then some e else lastTransaction h := by
  simp only [lastTransaction, List.foldl_append, List.foldl_cons, List.foldl_nil]

@[simp] theorem sequenceOpen_append (h : List Event) (e : Event) :
    sequenceOpen (h ++ [e]) = openAfter (sequenceOpen h) e := by
  simp only [sequenceOpen, List.foldl_append, List.foldl_cons, List.foldl_nil]

/-- What a step can do: idle, `WAIT`, power cycle, execute a decoded instruction, or refuse what decodes to none. -/
theorem step_cases (s : State) :
    (s.pending = [] ∧ step s = .next s) ∨
    (∃ rest, s.pending = .wait :: rest ∧ step s = .next (State.wait { s with pending := rest })) ∨
    (∃ rest, s.pending = .powerCycle :: rest ∧ step s = .next (State.powerCycle { s with pending := rest })) ∨
    (∃ e i rest, s.pending = .submit e :: rest ∧ decode e = .ok i ∧ step s = exec i { s with pending := rest }) ∨
    (∃ e why rest, s.pending = .submit e :: rest ∧ decode e = .error why ∧ step s = .refused (.undecodable why)) := by
  cases hp : s.pending with
  | nil => exact .inl ⟨rfl, by simp only [step, State.takeAction, hp]⟩
  | cons a rest =>
    cases a with
    | wait => exact .inr (.inl ⟨rest, rfl, by simp only [step, State.takeAction, hp]⟩)
    | powerCycle => exact .inr (.inr (.inl ⟨rest, rfl, by simp only [step, State.takeAction, hp]⟩))
    | submit e =>
      cases hd : decode e with
      | ok i => exact .inr (.inr (.inr (.inl ⟨e, i, rest, rfl, hd, by simp only [step, State.takeAction, hp, hd]⟩)))
      | error why => exact .inr (.inr (.inr (.inr ⟨e, why, rest, rfl, hd, by simp only [step, State.takeAction, hp, hd]⟩)))

end Sys2Proof.Machine
end

