-- ==== Sys2Proof/Laws/Exec.lean ====
section
/-! SUPPORT. What an instruction can do, said once, and what a device command decodes to. -/

namespace Sys2Proof.Machine

/-- The next states an instruction can have: a refusal, a checksum, one write of a frame, one read of groups. -/
inductive Effect (i : Instr) (s : State) : State → Prop where
  | refused (r : RefuseReason) (h : i.check s.config = some r) : Effect i s (s.refuse r)
  | checksum (v : Word) (h : i = .crc8 v.toNat) :
    Effect i s ((s.runCrc v).discardCrc.accept (.byte (crc8 v)))
  | plain (opcode : Word) (h : encodeFrame i = some (plainFrame opcode)) :
    Effect i s (s.sendFrame (plainFrame opcode))
  | param (opcode p : Word) (h : encodeFrame i = some (paramFrame opcode p (crc8 p))) :
    Effect i s (((s.runCrc p).sendFrame (paramFrame opcode p (crc8 p))).discardCrc)
  | readWord (rs : Nat) (h : rs ≤ 1) (hi : i = .readWord rs) : Effect i s (s.readGroups 1 (rs == 1) packWord)
  | readBlock (count : Nat) (h1 : 1 ≤ count) (h2 : count ≤ s.config.maxBlockWords) (hi : i = .readBlock count) :
    Effect i s (s.readGroups count false packWords)

theorem Effect.of_sendPlain {i : Instr} {s : State} {opcode : Nat}
    (hc : i.check s.config = if opcode ≤ wordMax then none else some (.operandRange .opcode))
    (hf : encodeFrame i = plainFrameOf opcode) : Effect i s (s.sendPlain opcode) := by
  unfold State.sendPlain
  split
  · exact .refused _ (by rw [hc, if_neg (by omega)])
  · exact .plain _ (by rw [hf, plainFrameOf, if_pos (by omega)])

theorem Effect.of_sendParam {i : Instr} {s : State} {opcode param : Nat}
    (hc : i.check s.config = if opcode ≤ wordMax then (if param ≤ wordMax then none else some (.operandRange .param))
      else some (.operandRange .opcode))
    (hf : encodeFrame i = paramFrameOf opcode param) : Effect i s (s.sendParam opcode param) := by
  unfold State.sendParam
  split
  · exact .refused _ (by rw [hc, if_neg (by omega)])
  · split
    · exact .refused _ (by rw [hc, if_pos (by omega), if_neg (by omega)])
    · exact .param _ _ (by rw [hf, paramFrameOf, if_pos ⟨by omega, by omega⟩])

/-- Every instruction answers a next state, and one of the effects gives it. -/
theorem exec_effect (i : Instr) (s : State) : ∃ t, exec i s = .next t ∧ Effect i s t := by
  cases i with
  | crc8 value =>
    refine ⟨_, rfl, ?_⟩
    split
    · exact .refused _ (by simp only [Instr.check]; rw [if_neg (by omega)])
    · refine .checksum (BitVec.ofNat 16 value) ?_
      simp only [wordMax] at *
      rw [BitVec.toNat_ofNat, Nat.mod_eq_of_lt (by omega)]
  | sendPlain opcode => exact ⟨_, rfl, .of_sendPlain rfl rfl⟩
  | sendParam opcode param => exact ⟨_, rfl, .of_sendParam rfl rfl⟩
  | readWord rs =>
    refine ⟨_, rfl, ?_⟩
    split
    · exact .refused _ (by simp only [Instr.check]; rw [if_neg (by omega)])
    · exact .readWord _ (by omega) rfl
  | readBlock count =>
    refine ⟨_, rfl, ?_⟩
    split
    · exact .refused _ (by simp only [Instr.check]; rw [if_neg (by omega)])
    · exact .readBlock _ (by omega) (by omega) rfl
  | reservedOp5 => exact ⟨_, rfl, .refused _ rfl⟩
  | reservedOp6 => exact ⟨_, rfl, .refused _ rfl⟩
  | reservedOp7 => exact ⟨_, rfl, .refused _ rfl⟩
  | dataReadyQuery => exact ⟨_, rfl, .of_sendPlain rfl rfl⟩
  | readMeasurements => exact ⟨_, rfl, .of_sendPlain rfl rfl⟩
  | startCont => exact ⟨_, rfl, .of_sendPlain rfl rfl⟩
  | stopCont => exact ⟨_, rfl, .of_sendPlain rfl rfl⟩
  | calibrate param => exact ⟨_, rfl, .of_sendParam rfl rfl⟩
  | factoryReset => exact ⟨_, rfl, .of_sendPlain rfl rfl⟩

/-- The effect behind a given next state. -/
theorem effect_of_exec {i : Instr} {s t : State} (h : exec i s = .next t) : Effect i s t := by
  obtain ⟨t', h', effect⟩ := exec_effect i s
  rw [h] at h'
  injection h' with h'
  exact h' ▸ effect

theorem withoutOperand_ok {opcode : Word} {operands : List Nat} {i j : Instr}
    (h : withoutOperand opcode operands i = .ok j) : j = i ∧ operands = [] := by
  cases operands with
  | nil =>
    simp only [withoutOperand] at h
    injection h with h
    exact ⟨h.symm, rfl⟩
  | cons a l => cases h

/-- What a device command that decodes is: one of the six, with its opcode and its operands (R51). -/
theorem decodeCommand_ok {opcode : Word} {operands : List Nat} {i : Instr} (h : decodeCommand opcode operands = .ok i) :
    encode i = .command opcode operands := by
  simp only [decodeCommand] at h
  split at h
  · obtain ⟨rfl, rfl⟩ := withoutOperand_ok h
    simp only [encode, *]
  split at h
  · obtain ⟨rfl, rfl⟩ := withoutOperand_ok h
    simp only [encode, *]
  split at h
  · obtain ⟨rfl, rfl⟩ := withoutOperand_ok h
    simp only [encode, *]
  split at h
  · obtain ⟨rfl, rfl⟩ := withoutOperand_ok h
    simp only [encode, *]
  split at h
  · split at h
    · injection h with h
      subst h
      simp only [encode, *]
    · cases h
  split at h
  · obtain ⟨rfl, rfl⟩ := withoutOperand_ok h
    simp only [encode, *]
  · cases h

end Sys2Proof.Machine
end

