-- ==== Sys2Proof/Laws/PerInstr.lean ====
section
/-! SUPPORT. Facts of every instruction as syntax, one lemma for each constructor. -/

namespace Sys2Proof.Laws

theorem length_plainFrameOf {opcode : Nat} {frame : List Byte} (h : plainFrameOf opcode = some frame) :
    frame.length = 2 := by
  simp only [plainFrameOf] at h
  split at h
  · injection h with h
    subst h
    rfl
  · cases h

theorem length_paramFrameOf {opcode param : Nat} {frame : List Byte} (h : paramFrameOf opcode param = some frame) :
    frame.length = 5 := by
  simp only [paramFrameOf] at h
  split at h
  · injection h with h
    subst h
    rfl
  · cases h

end Sys2Proof.Laws

namespace Sys2Proof.Laws.FrameLength

/-- A write frame has 2 or 5 bytes (30_encoding.md R50). -/
def Statement (i : Instr) : Prop :=
  ∀ frame, encodeFrame i = some frame → frame.length = 2 ∨ frame.length = 5

theorem crc8 (value : Nat) : Statement (.crc8 value) := fun _ h => nomatch h
theorem sendPlain (opcode : Nat) : Statement (.sendPlain opcode) := fun _ h => .inl (length_plainFrameOf h)
theorem sendParam (opcode param : Nat) : Statement (.sendParam opcode param) := fun _ h => .inr (length_paramFrameOf h)
theorem readWord (rs : Nat) : Statement (.readWord rs) := fun _ h => nomatch h
theorem readBlock (count : Nat) : Statement (.readBlock count) := fun _ h => nomatch h
theorem reservedOp5 : Statement .reservedOp5 := fun _ h => nomatch h
theorem reservedOp6 : Statement .reservedOp6 := fun _ h => nomatch h
theorem reservedOp7 : Statement .reservedOp7 := fun _ h => nomatch h
theorem dataReadyQuery : Statement .dataReadyQuery := fun _ h => .inl (length_plainFrameOf h)
theorem readMeasurements : Statement .readMeasurements := fun _ h => .inl (length_plainFrameOf h)
theorem startCont : Statement .startCont := fun _ h => .inl (length_plainFrameOf h)
theorem stopCont : Statement .stopCont := fun _ h => .inl (length_plainFrameOf h)
theorem calibrate (param : Nat) : Statement (.calibrate param) := fun _ h => .inr (length_paramFrameOf h)
theorem factoryReset : Statement .factoryReset := fun _ h => .inl (length_plainFrameOf h)

end Sys2Proof.Laws.FrameLength
end

