-- ==== Sys2Proof/Tests/Slice0.lean ====
section
/-! SUPPORT. Tests of one step each, with expected results from spec/95_test_vectors.md and the worked examples of the rules, the
smoke test of `WellFormed`, words decoded, and a witness for the hypotheses of each statement of the obligations. -/

namespace Sys2Proof.Tests

open Sys2Proof.Machine

/-! ### Small states and what a step shows -/

/-- The reset state of 95_test_vectors.md under a policy, with the answers the transport will give. -/
def start (policy : CheckPolicy) (writes : List WriteAnswer) (reads : List ReadAnswer) : State :=
  { State.resetWith { Configuration.standard with checkPolicy := policy } with writeAnswers := writes, readAnswers := reads }

/-- The next state, where there is one. -/
def nextOf : Host.Outcome State Fault Refusal → Option State
  | .next s => some s
  | .fault _ => none
  | .refused _ => none

/-- The outcomes delivered and the history, after a step. -/
def seen (o : Host.Outcome State Fault Refusal) : Option (List OpOutcome × List Event) :=
  (nextOf o).map fun s => (s.outcomes, s.hist)

/-- The hazard bit after a step. -/
def hazardAfter (o : Host.Outcome State Fault Refusal) : Option Bool := (nextOf o).map State.hazard

/-- The six-word measurement response of 95_test_vectors.md section 2.5, with its check bytes 0 and 1 given. -/
def measurement (c0 c1 : Byte) : List Byte :=
  [0x01, 0xF4, c0, 0x66, 0x67, c1, 0x5E, 0xB9, 0x3C, 0x00, 0x00, 0x81, 0x00, 0x00, 0x81, 0x00, 0x00, 0x81]

/-! ### CRC -/

/-- 95_test_vectors.md section 2.1. -/
theorem test_crc8_vectors :
    crc8 0x0190 = 0x4C ∧ crc8 0x01E0 = 0xB4 ∧ crc8 0xBEEF = 0x92 ∧ crc8 0x0000 = 0x81 ∧ crc8 0xFFFF = 0xAC ∧
      crc8 0xFF00 = 0x00 ∧ crc8 0x0001 = 0xB0 ∧ crc8 0x8000 = 0xA2 ∧ crc8 0x0100 = 0x75 ∧ crc8 0x00FF = 0x2D ∧
      crc8 0x0191 = 0x7D ∧ crc8 0x8006 = 0x04 ∧ crc8 0x0258 = 0x9F ∧ crc8 0x01F4 = 0x33 ∧ crc8 0x6667 = 0xA2 ∧
      crc8 0x5EB9 = 0x3C ∧ crc8 0x07FF = 0x83 ∧ crc8 0x0800 = 0xB6 ∧ crc8 0x1234 = 0x37 ∧ crc8 0xABCD = 0x6F ∧
      crc8 0x7FFF = 0x8F := by decide +kernel

/-- 95_test_vectors.md section 2.1, bit step, byte step and residue. -/
theorem test_crc_steps :
    crcBit 0x01 = 0x02 ∧ crcByte 0x9D 0x90 = 0x4C ∧ crcSeq [0x01, 0x90, 0x4C] = 0 ∧ crcSeq [0xBE, 0xEF, 0x92] = 0 := by
  decide +kernel

/-- 40_crc.md, note: `CrcSeq` over the ASCII bytes of 123456789. -/
theorem test_crc_check_value :
    crcSeq ("123456789".toList.map fun c => BitVec.ofNat 8 c.toNat) = 0xF7 := by decide +kernel

/-- 95_test_vectors.md section 2.6. -/
theorem test_crc8_returns : seen (exec (.crc8 0x0190) (start .lenient [] [])) = some ([.ok (.byte 0x4C)], []) := by decide +kernel

/-- 95_test_vectors.md section 2.1, last row. -/
theorem test_crc8_out_of_range :
    seen (exec (.crc8 0x10000) (start .lenient [] [])) = some ([.refused (.operandRange .value)], []) := by decide

/-! ### Writes: 95_test_vectors.md sections 2.2 and 2.3 -/

theorem test_sendPlain_unlisted :
    seen (exec (.sendPlain 0x0000) (start .lenient [.moved 2] [])) =
      some ([.ok .unit], [.wr 0x62 [0x00, 0x00] .ok]) := by decide

theorem test_sendPlain_short_count_fails :
    seen (exec (.sendPlain 0x21B1) (start .lenient [.moved 1] [])) =
      some ([.err (.transport .write 2)], [.wr 0x62 [0x21, 0xB1] .fail]) := by decide

theorem test_sendParam_frame :
    seen (exec (.sendParam 0xABCD 0x1234) (start .strict [.moved 5] [])) =
      some ([.ok .unit], [.wr 0x62 [0xAB, 0xCD, 0x12, 0x34, 0x37] .ok]) := by decide +kernel

theorem test_sendParam_opcode_checked_first :
    seen (exec (.sendParam 0x10000 0x10000) (start .lenient [.moved 5] [])) =
      some ([.refused (.operandRange .opcode)], []) := by decide

/-! ### Reads: 95_test_vectors.md sections 2.4 and 2.5 -/

theorem test_readWord_lenient_bad_check_byte :
    seen (exec (.readWord 1) (start .lenient [] [.moved [0x80, 0x06, 0x00]])) =
      some ([.ok (.word 0x8006)], [.rd 0x62 3 true (.ok [0x80, 0x06, 0x00])]) := by decide

theorem test_readWord_strict_zero_group :
    seen (exec (.readWord 0) (start .strict [] [.moved [0x00, 0x00, 0x00]])) =
      some ([.err (.checksum 0)], [.rd 0x62 3 false (.ok [0x00, 0x00, 0x00])]) := by decide +kernel

theorem test_readBlock_strict_second_group_bad :
    (seen (exec (.readBlock 6) (start .strict [] [.moved (measurement 0x33 0xA3)]))).map Prod.fst =
      some [.err (.checksum 1)] := by decide +kernel

theorem test_readBlock_lenient_two_groups_bad :
    seen (exec (.readBlock 6) (start .lenient [] [.moved (measurement 0x00 0xA3)])) =
      some ([.ok (.words [0x01F4, 0x6667, 0x5EB9, 0, 0, 0])],
        [.rd 0x62 18 false (.ok (measurement 0x00 0xA3))]) := by decide

/-- R88 and R18: a failed read discards its buffer, to a free value of a legal length. -/
theorem test_failed_read_discards_rx :
    (nextOf (exec (.readWord 0) { start .lenient [] [.error] with rx := [1, 2, 3] })).map State.rx = some (freeRx 1 6) := rfl

/-! ### Reserved codes: 95_test_vectors.md section 2.6 -/

theorem test_reserved_codes :
    seen (exec .reservedOp5 (start .lenient [] [])) = some ([.refused .reservedOp], []) ∧
      seen (exec .reservedOp6 (start .lenient [] [])) = some ([.refused .reservedOp], []) ∧
      seen (exec .reservedOp7 (start .lenient [] [])) = some ([.refused .reservedOp], []) := by decide

/-! ### Device commands: the worked examples of R75 to R80 -/

theorem test_dataReadyQuery :
    seen (exec .dataReadyQuery (start .lenient [.moved 2] [])) = some ([.ok .unit], [.wr 0x62 [0xE4, 0xB8] .ok]) := by decide

theorem test_readMeasurements :
    seen (exec .readMeasurements (start .lenient [.moved 2] [])) = some ([.ok .unit], [.wr 0x62 [0xEC, 0x05] .ok]) := by decide

theorem test_startCont :
    seen (exec .startCont (start .lenient [.moved 2] [])) = some ([.ok .unit], [.wr 0x62 [0x21, 0xB1] .ok]) := by decide

theorem test_stopCont_error :
    seen (exec .stopCont (start .lenient [.error] [])) =
      some ([.err (.transport .write 2)], [.wr 0x62 [0x3F, 0x86] .fail]) := by decide

theorem test_calibrate_480 :
    seen (exec (.calibrate 480) (start .lenient [.moved 5] [])) =
      some ([.ok .unit], [.wr 0x62 [0x36, 0x2F, 0x01, 0xE0, 0xB4] .ok]) := by decide +kernel

theorem test_factoryReset :
    seen (exec .factoryReset (start .lenient [.moved 2] [])) = some ([.ok .unit], [.wr 0x62 [0x36, 0x32] .ok]) := by decide

/-! ### Hazards and host actions -/

/-- 95_test_vectors.md section 2.7, row by row: the history before, the event, the hazard after. -/
theorem test_hazard_vectors :
    ([([.wr 0x62 [0xE4, 0xB8] .ok, .wait], .rd 0x62 3 false (.ok [0, 0, 0]), false),
      ([.wr 0x62 [0xE4, 0xB8] .ok, .wait, .wait], .rd 0x62 3 false .fail, false),
      ([.wr 0x62 [0xE4, 0xB8] .ok], .rd 0x62 3 false .fail, true),
      ([], .rd 0x62 3 false .fail, true),
      ([.wr 0x62 [0xE4, 0xB8] .ok, .wait, .rd 0x62 3 false .fail], .rd 0x62 3 false .fail, true),
      ([.wr 0x62 [0xE4, 0xB8] .fail, .wait], .rd 0x62 3 false .fail, true),
      ([.wr 0x62 [0xEC, 0x05] .ok], .wr 0x62 [0x3F, 0x86] .ok, true),
      ([.wr 0x62 [0x21, 0xB1] .ok], .wr 0x62 [0x3F, 0x86] .ok, false),
      ([.wr 0x62 [0xEC, 0x05] .ok, .wait, .rd 0x62 3 false .fail], .wr 0x62 [0x3F, 0x86] .fail, false)]
        : List (List Event × Event × Bool)).all (fun r => breaksObligation r.1 r.2.1 == r.2.2) = true := by decide

/-- 95_test_vectors.md P4 line 2: an interleaved command sets the hazard bit, and its outcome is as without it. -/
theorem test_interleaved_stop :
    hazardAfter (exec .stopCont { start .lenient [.moved 2] [] with hist := [.wr 0x62 [0xE4, 0xB8] .ok] }) = some true := by
  decide

/-- R102. -/
theorem test_wait : seen (step { start .lenient [] [] with pending := [.wait] }) = some ([], [.wait]) := by decide

/-- R100: history and hazard do not survive a power cycle. -/
theorem test_powerCycle :
    hazardAfter (step { start .strict [] [] with pending := [.powerCycle], hist := [.wait], hazard := true }) = some false ∧
      seen (step { start .strict [] [] with pending := [.powerCycle], hist := [.wait], hazard := true }) = some ([], []) := by
  decide

/-! ### Decoding: words written out from the spec's encodings -/

/-- 30_encoding.md R43, the select codes bit by bit. -/
theorem test_decode_requests :
    decodeTableWord 8 0b000 = some (.crc8 0) ∧ decodeTableWord 8 0b001 = some (.sendPlain 0) ∧
      decodeTableWord 8 0b010 = some (.sendParam 0 0) ∧ decodeTableWord 8 0b011 = some (.readWord 0) ∧
      decodeTableWord 8 0b100 = some (.readBlock 0) ∧ decodeTableWord 8 0b101 = some .reservedOp5 ∧
      decodeTableWord 8 0b110 = some .reservedOp6 ∧ decodeTableWord 8 0b111 = some .reservedOp7 := by decide

/-- 30_encoding.md R51, the opcodes bit by bit as the table writes them. -/
theorem test_decode_commands :
    decodeTableWord 16 0b1110010010111000 = some .dataReadyQuery ∧
      decodeTableWord 16 0b1110110000000101 = some .readMeasurements ∧
      decodeTableWord 16 0b0010000110110001 = some .startCont ∧
      decodeTableWord 16 0b0011111110000110 = some .stopCont ∧
      decodeTableWord 16 0b0011011000101111 = some (.calibrate 0) ∧
      decodeTableWord 32 0b00000001100100000011011000101111 = some (.calibrate 400) ∧
      decodeTableWord 16 0b0011011000110010 = some .factoryReset := by decide

/-- R51: an opcode outside the six is no device command, and the rejection says so. -/
theorem test_decode_unlisted :
    decodeTableWord 16 0x1234 = none ∧ decode (.command 0x1234 []) = .error (.unlistedOpcode 0x1234) ∧
      decode (.command 0x21B1 [7]) = .error (.operandCount 0x21B1 1) ∧
      decode (.command 0x362F []) = .error (.operandCount 0x362F 0) := by decide

/-- R45, R46, R50: frames on the bus, decoded from their bytes. -/
theorem test_decode_frames :
    decodeFrame [0x3F, 0x86] = .ok .stopCont ∧ decodeFrame [0x36, 0x2F, 0x01, 0x90, 0x4C] = .ok (.calibrate 400) ∧
      decodeFrame [0xAB, 0xCD, 0x12, 0x34, 0x37] = .ok (.sendParam 0xABCD 0x1234) ∧
      decodeFrame [0x36, 0x2F, 0x01, 0x90, 0x4D] = .error (.checkByte 0x4D 0x4C) ∧
      decodeFrame [0x36, 0x2F, 0x01] = .error (.frameLength 3) := by decide +kernel

/-- The first step after reset runs the placed instruction. -/
theorem test_fetch :
    (nextOf (step (State.reset.withFetchWord 8 0b000))).map State.outcomes = some [.ok (.byte 0x81)] ∧
      (nextOf (step (State.reset.withFetchWord 8 0b100))).map State.outcomes = some [.refused .blockCount] ∧
      (nextOf (step (State.reset.withFetchWord 16 0x362F))).isSome = true := by decide +kernel

/-! ### WellFormed: an ill-formed term for each check -/

theorem test_wellFormed_refuses :
    (Instr.crc8 0x10000).check .standard = some (.operandRange .value) ∧
      (Instr.sendPlain 0x12345).check .standard = some (.operandRange .opcode) ∧
      (Instr.sendParam 0x10000 0x10000).check .standard = some (.operandRange .opcode) ∧
      (Instr.sendParam 0x362F 0x10000).check .standard = some (.operandRange .param) ∧
      (Instr.readWord 2).check .standard = some (.operandRange .rs) ∧
      (Instr.readBlock 0).check .standard = some .blockCount ∧
      (Instr.readBlock 7).check .standard = some .blockCount ∧
      (Instr.calibrate 0x10000).check .standard = some (.operandRange .param) ∧
      Instr.reservedOp5.check .standard = some .reservedOp ∧ Instr.reservedOp6.check .standard = some .reservedOp ∧
      Instr.reservedOp7.check .standard = some .reservedOp := by decide

theorem test_wellFormed_accepts :
    ∀ i ∈ [Instr.crc8 0xFFFF, .sendPlain 0xFFFF, .sendParam 0xFFFF 0xFFFF, .readWord 1, .readBlock 1, .readBlock 6,
      .dataReadyQuery, .readMeasurements, .startCont, .stopCont, .calibrate 0xFFFF, .factoryReset],
      i.WellFormed .standard := by decide

/-! ### The textual form (R56, R57) -/

theorem test_assemble_forms :
    assemble "sendp 0x362F, 400 ; recalibrate\n; a comment\nwait\nrdw.rs".toList =
      .ok [.submit (.request { op := 0b010, opcode := 0x362F, param := 400 }), .wait,
        .submit (.request { op := 0b011, rs := 1 })] := by decide

theorem test_immediates :
    parseNumber "0xe4B8".toList = .ok 0xE4B8 ∧ parseNumber "400".toList = .ok 400 ∧ parseNumber "0x0".toList = .ok 0 ∧
      parseNumber "4F".toList = .error (.badNumber "4F".toList) ∧
      parseNumber "0xG".toList = .error (.badNumber "0xG".toList) ∧
      parseNumber "0x".toList = .error (.badNumber "0x".toList) := by decide

theorem test_assemble_pseudo :
    assemble "qmeas".toList =
      .ok [.submit (.request { op := 0b001, opcode := 0xEC05 }), .wait, .submit (.request { op := 0b100, count := 6 })] ∧
      assemble "rdb six".toList = .error (.badNumber "six".toList) ∧
      assemble "jump 3".toList = .error (.unknownForm ["jump".toList, "3".toList]) := by decide

/-! ### Witnesses: states and operands that meet the hypotheses of each statement together -/

/-- The read that the read statements are about: three bytes given under a policy. -/
def reading (policy : CheckPolicy) (bytes : List Byte) : State := start policy [] [.moved bytes]

theorem witness_Crc8ReturnsTheChecksum :
    (⟨0b000, 0, 0, 5, 0, 0⟩ : Request).op = 0b000#3 ∧ 0xFFFF < 0x10000 := by decide

theorem witness_SendPlainWritesTheOpcodeBigEndian :
    (⟨0b001, 5, 0, 0, 0, 0⟩ : Request).op = 0b001#3 ∧ 0xFFFF < 0x10000 := by decide

theorem witness_SendParamWritesOpcodeParameterAndChecksum :
    (⟨0b010, 5, 6, 0, 0, 0⟩ : Request).op = 0b010#3 ∧ 0xFFFF < 0x10000 ∧ (0xFFFF ≤ 0xFFFF ∧ 0xFFFF < 0x10000) := by decide

theorem witness_writes_succeed_and_fail :
    (start .lenient [.moved 2] []).writeResult [0x21, 0xB1] = .ok ∧
      (start .lenient [.moved 1] []).writeResult [0x21, 0xB1] = .fail := by decide

theorem witness_PlainDeviceCommandsWriteTheirOpcode :
    (Instr.factoryReset, (0x36 : Byte), (0x32 : Byte)) ∈ [(Instr.dataReadyQuery, (0xE4 : Byte), (0xB8 : Byte)),
      (Instr.readMeasurements, 0xEC, 0x05), (Instr.startCont, 0x21, 0xB1), (Instr.stopCont, 0x3F, 0x86),
      (Instr.factoryReset, 0x36, 0x32)] := by decide

theorem witness_CalibrateWritesTheParameterAndItsChecksum : 0xFFFF < 0x10000 := by decide

theorem witness_Crc8DetectsEverySingleBitFlip : 15 < 16 := by decide

theorem witness_ReadWordLenientReturnsTheWord :
    1 ≤ 1 ∧ (reading .lenient [0x80, 0x06, 0x04]).config.checkPolicy = .lenient ∧
      (reading .lenient [0x80, 0x06, 0x04]).readResult 3 (1 == 1) = .ok [0x80, 0x06, 0x04] := by decide

theorem witness_ReadWordStrictChecksTheWord :
    1 ≤ 1 ∧ (reading .strict [0x80, 0x06, 0x00]).config.checkPolicy = .strict ∧
      (reading .strict [0x80, 0x06, 0x00]).readResult 3 (1 == 1) = .ok [0x80, 0x06, 0x00] := by decide

theorem witness_FailedReadsDeliverNoWords :
    (1 ≤ 1 ∧ (reading .lenient [0x80, 0x06]).readResult 3 (1 == 1) = .fail) ∧
      (1 ≤ 6 ∧ 6 ≤ (reading .lenient []).config.maxBlockWords ∧ (reading .lenient []).readResult (3 * 6) false = .fail) := by
  decide

theorem witness_ReadBlockLenientReturnsTheWords :
    1 ≤ 6 ∧ 6 ≤ (reading .lenient (measurement 0 0)).config.maxBlockWords ∧
      (reading .lenient (measurement 0 0)).config.checkPolicy = .lenient ∧
      (reading .lenient (measurement 0 0)).readResult (3 * 6) false = .ok (measurement 0 0) := by decide

/-- The good clause with `measurement 0x33 0xA2`, the bad one at the first group and at a later one. -/
theorem witness_ReadBlockStrictNamesTheLowestBadGroup :
    (1 ≤ 6 ∧ 6 ≤ (reading .strict (measurement 0x33 0xA2)).config.maxBlockWords ∧
      (reading .strict (measurement 0x33 0xA2)).config.checkPolicy = .strict ∧
      (reading .strict (measurement 0x33 0xA2)).readResult (3 * 6) false = .ok (measurement 0x33 0xA2)) ∧
    (∀ k, k < 6 → (measurement 0x33 0xA2).getD (3 * k + 2) 0 =
      crc8 ((measurement 0x33 0xA2).getD (3 * k) 0 ++ (measurement 0x33 0xA2).getD (3 * k + 1) 0)) ∧
    (measurement 0x00 0xA3).getD 2 0 ≠ crc8 ((measurement 0x00 0xA3).getD 0 0 ++ (measurement 0x00 0xA3).getD 1 0) ∧
    (measurement 0x33 0xA3).getD 5 0 ≠ crc8 ((measurement 0x33 0xA3).getD 3 0 ++ (measurement 0x33 0xA3).getD 4 0) := by
  decide +kernel

theorem witness_LenientOutcomesIgnoreCheckBytes :
    (start .lenient [] []).config.checkPolicy = .lenient ∧
      ([0x80, 0x06, 0x04] : List Byte).length = ([0x80, 0x06, 0x00] : List Byte).length ∧
      (∀ j, j % 3 ≠ 2 → ([0x80, 0x06, 0x04] : List Byte).getD j 0 = ([0x80, 0x06, 0x00] : List Byte).getD j 0) ∧
      (∃ t, exec (.readWord 0) { start .lenient [] [] with readAnswers := .moved [0x80, 0x06, 0x04] :: [] } = .next t) ∧
      ∃ t, exec (.readWord 0) { start .lenient [] [] with readAnswers := .moved [0x80, 0x06, 0x00] :: [] } = .next t := by
  refine ⟨rfl, rfl, fun j hj => ?_, ⟨_, rfl⟩, ⟨_, rfl⟩⟩
  match j with
  | 0 => rfl
  | 1 => rfl
  | 2 => exact absurd rfl hj
  | n + 3 => rfl

theorem witness_WellFormedResponsesDecodeToTheirWords :
    1 ≤ ([0x01F4, 0x6667, 0x5EB9, 0, 0, 0] : List Word).length ∧
      ([0x01F4, 0x6667, 0x5EB9, 0, 0, 0] : List Word).length ≤ (start .strict [] []).config.maxBlockWords := by decide

theorem witness_StrictLocatesEverySingleBitError :
    ([0x01F4, 0x6667] : List Word).length ≤ (start .strict [] []).config.maxBlockWords ∧
      (start .strict [] []).config.checkPolicy = .strict ∧ 5 < 3 * ([0x01F4, 0x6667] : List Word).length ∧ 7 < 8 := by decide

theorem witness_BlockOfOneDecodesLikeAWord :
    1 ≤ (reading .strict [0x80, 0x06, 0x04]).config.maxBlockWords ∧
      (nextOf (exec (.readWord 0) (reading .strict [0x80, 0x06, 0x04]))).map State.outcomes =
        some ((reading .strict [0x80, 0x06, 0x04]).outcomes ++ [.ok (.word 0x8006)]) := by decide +kernel

theorem witness_ShortTransfersFailAndFullOnesSucceed :
    (start .lenient [.error] [.error]).writeAnswers = .error :: [] ∧
      (start .lenient [.error] [.error]).readAnswers = .error :: [] ∧
      ((start .lenient [.moved 4] []).writeAnswers = .moved 4 :: [] ∧ 4 < ([1, 2, 3, 4, 5] : List Byte).length) ∧
      (4 = ([1, 2, 3, 4] : List Byte).length) ∧
      ((reading .lenient [1, 2]).readAnswers = .moved [1, 2] :: [] ∧ ([1, 2] : List Byte).length < 3) ∧
      ([1, 2] : List Byte).length = 2 := by decide

theorem witness_ReservedCodesAreRefused :
    (⟨0b101, 1, 2, 3, 4, 5⟩ : Request).op = 0b101#3 ∧ (⟨0b110, 1, 2, 3, 4, 5⟩ : Request).op = 0b110#3 ∧
      (⟨0b111, 1, 2, 3, 4, 5⟩ : Request).op = 0b111#3 ∧
      Instr.reservedOp7 ∈ [Instr.reservedOp5, Instr.reservedOp6, Instr.reservedOp7] := by decide

theorem witness_RefusedRequestsChangeNoState :
    (Instr.readBlock 7).check (start .lenient [] []).config = some .blockCount := by decide

theorem witness_WellFormedRequestsAreNeverRefused :
    (Instr.readWord 1).WellFormed (start .lenient [] []).config ∧
      (nextOf (exec (.readWord 1) (start .lenient [] []))).isSome = true := by decide

theorem witness_TransportErrorsRecordTheFailedTransaction :
    (nextOf (exec .stopCont (start .lenient [.error] []))).map State.outcomes =
        some ((start .lenient [.error] []).outcomes ++ [.err (.transport .write 2)]) ∧
      (nextOf (exec (.readBlock 6) (start .lenient [] [.error]))).map State.outcomes =
        some ((start .lenient [] [.error]).outcomes ++ [.err (.transport .read 18)]) := by decide

theorem witness_ChecksumErrorsOnlyUnderStrictAfterASuccessfulRead :
    (nextOf (exec (.readWord 0) (reading .strict [0, 0, 0]))).map State.outcomes =
        some ((reading .strict [0, 0, 0]).outcomes ++ [.err (.checksum 0)]) ∧
      (nextOf (exec (.readBlock 6) (reading .strict (measurement 0x33 0xA3)))).map State.outcomes =
        some ((reading .strict (measurement 0x33 0xA3)).outcomes ++ [.err (.checksum 1)]) := by decide +kernel

/-- A state with a given history. -/
def after (h : List Event) : State := { start .lenient [] [] with hist := h }

/-- Both clauses of the delay rule, at no `Wait` and at one. -/
theorem witness_ReadHazardFollowsTheCommandDelay :
    (1 ≤ 6 ∧ 6 ≤ (after []).config.maxBlockWords) ∧
      (after [.wr 0x62 [0xE4, 0xB8] .ok]).hist = [] ++ [.wr 0x62 [0xE4, 0xB8] .ok] ∧
      (after [.wr 0x62 [0xE4, 0xB8] .ok, .wait]).hist =
        [] ++ [.wr 0x62 [0xE4, 0xB8] .ok] ++ List.replicate (0 + 1) .wait := by decide

theorem witness_InterleavedWriteSetsHazard :
    encodeFrame (.sendPlain 0x3F86) = some [0x3F, 0x86] ∧
      SequenceOpen (after [.wr 0x62 [0xE4, 0xB8] .ok, .wait]).hist ∧ ¬ SequenceOpen (after [.wait]).hist := by
  refine ⟨by decide, ⟨[], 0x62, [0xE4, 0xB8], [.wait], rfl, .inl (by decide), ?_⟩, ?_⟩
  · intro a n rs r h
    simp at h
  · rintro ⟨h, addr, frame, rest, he, -, -⟩
    have hm : Event.wr addr frame .ok ∈ (after [.wait]).hist := by simp [he]
    simp [after] at hm

/-- The three cases of a read without a command: no transaction, a read, a failed write. -/
theorem witness_ReadWithoutCommandSetsHazard :
    (after [.wait]).hist = List.replicate 1 .wait ∧
      (after [.rd 0x62 3 false .fail, .wait]).hist = [] ++ [.rd 0x62 3 false .fail] ++ List.replicate 1 .wait ∧
      (after [.wr 0x62 [0xE4, 0xB8] .fail]).hist = [] ++ [.wr 0x62 [0xE4, 0xB8] .fail] ++ List.replicate 0 .wait := by decide

/-- A state with a hazard, about to perform a command. -/
def hazardous : State := { start .lenient [.moved 2] [] with hazard := true, pending := [.submit (encode .stopCont)] }

theorem witness_HazardIsSticky :
    (∃ t, step hazardous = .next t) ∧ hazardous.hazard = true ∧ ∀ rest, hazardous.pending ≠ .powerCycle :: rest := by
  refine ⟨⟨_, rfl⟩, rfl, fun rest h => ?_⟩
  simp [hazardous] at h

theorem witness_HistoryOnlyGrowsByOneEvent :
    (∃ t, step hazardous = .next t) ∧ ∀ rest, hazardous.pending ≠ .powerCycle :: rest := by
  refine ⟨⟨_, rfl⟩, fun rest h => ?_⟩
  simp [hazardous] at h

theorem witness_HistoryAndHazardChangeNoResult :
    (start .strict [.moved 2] [.moved [0, 0, 0x81]]).writeAnswers ≠ [] ∧
      (start .strict [.moved 2] [.moved [0, 0, 0x81]]).readAnswers ≠ [] ∧
      ∃ t, exec (.readWord 0) (start .strict [.moved 2] [.moved [0, 0, 0x81]]) = .next t :=
  ⟨by decide, by decide, _, rfl⟩

theorem witness_OperationsIgnoreEarlierRegisterContents :
    ∃ t, exec (.sendParam 0x362F 400) (start .strict [.moved 5] []) = .next t :=
  ⟨_, rfl⟩

/-- A history in which an obligation was broken, with the hazard bit set, is one that `HazardExact` holds of. -/
theorem witness_StepKeepsHazardExact :
    ({ hazardous with hist := [.rd 0x62 3 false .fail] } : State).HazardExact ∧
      ∃ t, step { hazardous with hist := [.rd 0x62 3 false .fail] } = .next t := by
  constructor
  · constructor
    · intro h
      cases h
    · intro clean
      obtain ⟨h, addr, frame, j, he⟩ := clean [] (.rd 0x62 3 false .fail) [] rfl
      have hl := congrArg List.length he
      simp at hl
  · exact ⟨_, rfl⟩

theorem witness_StepKeepsTheShapeOfTheState :
    ({ hazardous with hist := [.wr 0x62 [0xE4, 0xB8] .ok, .wait, .rd 0x62 3 true (.ok [1, 2, 3])] } : State).Shape ∧
      ∃ t, step { hazardous with hist := [.wr 0x62 [0xE4, 0xB8] .ok, .wait, .rd 0x62 3 true (.ok [1, 2, 3])] } = .next t :=
  ⟨by decide, _, rfl⟩

theorem witness_ResetHasTheShape : (⟨0x62, .strict, 9, 1000⟩ : Configuration).Legal := by decide

theorem witness_ConfigurationNeverChanges : ∃ t, step { hazardous with pending := [.powerCycle] } = .next t := ⟨_, rfl⟩

theorem witness_StepsAlwaysComplete :
    ({ hazardous with pending := [.submit (.command 0x1234 [])] } : State).pending = .submit (.command 0x1234 []) :: [] ∧
      0x1234#16 ∉ [0xE4B8#16, 0xEC05#16, 0x21B1#16, 0x3F86#16, 0x362F#16, 0x3632#16] := by decide

theorem witness_StepRunsTheDecodedInstruction :
    hazardous.pending = .submit (encode .stopCont) :: [] ∧ decode (encode .stopCont) = .ok .stopCont := by decide

theorem witness_WaitAppendsOneEventAndNothingElse :
    ({ hazardous with pending := [.wait] } : State).pending = .wait :: [] := rfl

theorem witness_PowerCycleIsAReset :
    ({ hazardous with pending := [.powerCycle, .wait] } : State).pending = .powerCycle :: [.wait] := rfl

theorem witness_NoRequestChangesNothing : (start .lenient [] []).pending = [] := rfl

theorem witness_WriteFramesRoundTrip :
    encodeFrame (.sendParam 0xABCD 0x1234) = some [0xAB, 0xCD, 0x12, 0x34, 0x37] ∧
      Instr.calibrate 400 ∈ [.dataReadyQuery, .readMeasurements, .startCont, .stopCont, .calibrate 400, .factoryReset] ∧
      decodeFrame [0xAB, 0xCD, 0x12, 0x34, 0x37] = .ok (.sendParam 0xABCD 0x1234) := by decide +kernel

end Sys2Proof.Tests
end

section
/-! O39. What keeps the shape of the state (10_state.md R18, R19; 20_memory.md R31, R32; 00_scope.md R6): one lemma for each way
a step changes what the shape speaks of, then the step. -/

namespace Sys2Proof.Machine

/-- A legal configuration allows a block of one word (R19). -/
theorem maxBlockWords_pos_of_legal {c : Configuration} (legal : c.Legal) : 0 < c.maxBlockWords :=
  Nat.lt_of_lt_of_le (by decide) legal.1

/-- A transaction or a `Wait` of a legal shape, appended to the history, keeps the shape of the state, whatever legal contents
it leaves in the buffers and whatever becomes of the fields the shape does not speak of. -/
theorem State.shape_of_appended {s t : State} (e : Event) (hs : s.Shape) (he : eventShape s.config e = true)
    (hconfig : t.config = s.config) (hhist : t.hist = s.hist ++ [e])
    (htx : t.tx = s.tx ∨ ∃ k, t.tx = freeTx k) (hrx : t.rx = s.rx ∨ ∃ k, t.rx = freeRx k s.config.maxBlockWords) :
    t.Shape := by
  obtain ⟨legal, txLegal, rxLegal, histLegal⟩ := hs
  refine ⟨hconfig ▸ legal, ?_, hconfig ▸ ?_, hconfig ▸ hhist ▸ ?_⟩
  · obtain same | ⟨k, free⟩ := htx
    · exact same ▸ txLegal
    · exact free ▸ length_freeTx k
  · obtain same | ⟨k, free⟩ := hrx
    · exact same ▸ rxLegal
    · exact free ▸ length_freeRx k (maxBlockWords_pos_of_legal legal)
  · simp only [List.forall_mem_append, List.forall_mem_singleton]
    exact ⟨histLegal, he⟩

/-- One write transaction to `DEV_ADDR` of a frame of 2 or 5 bytes keeps the shape (R6, R31). -/
theorem State.shape_sendFrame {s : State} {frame : List Byte} (hs : s.Shape)
    (hlen : frame.length = 2 ∨ frame.length = 5) : (s.sendFrame frame).Shape := by
  have he : eventShape s.config (.wr s.config.devAddr frame (s.writeResult frame)) = true := by
    simp [eventShape, hlen]
  rw [State.sendFrame_eq]
  exact State.shape_of_appended _ hs he rfl rfl (.inr ⟨_, rfl⟩) (.inl rfl)

/-- A read of a legal count is an event of a legal shape, whatever the transport makes of it: where it succeeds it delivers
exactly the bytes it asked for (R31, R32). -/
theorem State.eventShape_read (s : State) {count : Nat} (rs : Bool) (h1 : 1 ≤ count)
    (h2 : count ≤ s.config.maxBlockWords) :
    eventShape s.config
      (.rd s.config.devAddr (readLength count) rs (s.readResult (readLength count) rs)) = true := by
  have legal : readLength count % 3 = 0 ∧ 3 ≤ readLength count ∧ readLength count ≤ 3 * s.config.maxBlockWords := by
    simp only [readLength]
    omega
  cases hr : s.readResult (readLength count) rs with
  | fail => simp [eventShape, legal]
  | ok bytes => simp [eventShape, legal, s.length_of_readResult hr]

/-- What a read of groups makes of the fields the shape speaks of: its one transaction is appended and `rx` discarded, under
both policies and however the transport answers. -/
theorem State.readGroups_appends (s : State) (count : Nat) (rs : Bool) (pack : List Word → OpResult) :
    (s.readGroups count rs pack).config = s.config ∧
      (s.readGroups count rs pack).hist =
        s.hist ++ [.rd s.config.devAddr (readLength count) rs (s.readResult (readLength count) rs)] ∧
      (s.readGroups count rs pack).tx = s.tx ∧
      ∃ k, (s.readGroups count rs pack).rx = freeRx k s.config.maxBlockWords := by
  cases hr : s.readResult (readLength count) rs with
  | fail =>
    rw [State.readGroups_fail s pack hr]
    exact ⟨rfl, rfl, rfl, _, rfl⟩
  | ok bytes =>
    cases hp : s.config.checkPolicy with
    | lenient =>
      rw [State.readGroups_lenient s pack hp hr]
      exact ⟨rfl, rfl, rfl, _, rfl⟩
    | strict =>
      rw [State.readGroups_strict s pack hp hr]
      exact ⟨rfl, rfl, rfl, _, rfl⟩

/-- One read of a legal count keeps the shape. -/
theorem State.shape_readGroups {s : State} {count : Nat} (rs : Bool) (pack : List Word → OpResult) (hs : s.Shape)
    (h1 : 1 ≤ count) (h2 : count ≤ s.config.maxBlockWords) : (s.readGroups count rs pack).Shape := by
  obtain ⟨hconfig, hhist, htx, hrx⟩ := s.readGroups_appends count rs pack
  exact State.shape_of_appended _ hs (s.eventShape_read rs h1 h2) hconfig hhist (.inl htx) (.inr hrx)

/-- Every effect an instruction can have keeps the shape. The updates beside the transaction, of `crc` and of the outcomes, touch
nothing the shape speaks of. -/
theorem Effect.shape {i : Instr} {s t : State} (effect : Effect i s t) (hs : s.Shape) : t.Shape := by
  cases effect with
  | refused r h => exact hs
  | checksum v h => exact hs
  | plain opcode h => exact State.shape_sendFrame hs (.inl rfl)
  | param opcode p h =>
    have hran : (s.runCrc p).Shape := hs
    have sent := State.shape_sendFrame (frame := paramFrame opcode p (crc8 p)) hran (.inr rfl)
    exact sent
  | readWord rs h hi => exact State.shape_readGroups _ _ hs (Nat.le_refl 1) (maxBlockWords_pos_of_legal hs.1)
  | readBlock count h1 h2 hi => exact State.shape_readGroups _ _ hs h1 h2

/-- A power cycle of a legal instantiation gives the shape: the history is empty and the buffers hold free values of legal
lengths (R18, R98, R100). -/
theorem State.shape_powerCycle {s : State} (legal : s.config.Legal) : s.powerCycle.Shape :=
  ⟨legal, length_freeTx _, length_freeRx _ (maxBlockWords_pos_of_legal legal), fun _ he => nomatch he⟩

/-- Settles O39, by the cases of a step: a `Wait` and an instruction append at most one event, of a legal shape; a power cycle
starts again from the legal configuration. -/
theorem stepKeepsTheShapeOfTheState : Obligations.StepKeepsTheShapeOfTheState := by
  intro s t hs hstep
  obtain ⟨-, h⟩ | ⟨rest, -, h⟩ | ⟨rest, -, h⟩ | ⟨e, i, rest, -, -, h⟩ | ⟨e, why, rest, -, -, h⟩ := step_cases s
  · exact Host.Outcome.next.inj (h.symm.trans hstep) ▸ hs
  · have waited : (State.wait { s with pending := rest }).Shape :=
      State.shape_of_appended .wait hs rfl rfl rfl (.inl rfl) (.inl rfl)
    exact Host.Outcome.next.inj (h.symm.trans hstep) ▸ waited
  · have cycled : (State.powerCycle { s with pending := rest }).Shape := State.shape_powerCycle hs.1
    exact Host.Outcome.next.inj (h.symm.trans hstep) ▸ cycled
  · have taken : ({ s with pending := rest } : State).Shape := hs
    exact (effect_of_exec (h.symm.trans hstep)).shape taken
  · exact nomatch h.symm.trans hstep

end Sys2Proof.Machine
end

section
/-! The hazard rules of `Machine/Flags.lean` in the rules' own words (70_reset_and_hazards.md R103 to R105): each Boolean that the
model computes from the history holds exactly when the predicate of `Safety.lean` does. -/

namespace Sys2Proof.Machine

/-! ### R104: an open sequence -/

/-- The two bytes of an opcode stand at the head of a frame exactly when the frame's first word is the opcode (R45, R104). -/
theorem opcode_heads_frame_iff (opcode : Word) (hi lo : Byte) (rest : List Byte) :
    [hiByte opcode, loByte opcode] <+: hi :: lo :: rest ↔ hi ++ lo = opcode := by
  simp only [List.cons_prefix_cons, List.nil_prefix, and_true]
  constructor
  · rintro ⟨rfl, rfl⟩
    exact hiByte_append_loByte opcode
  · rintro rfl
    exact ⟨hiByte_append hi lo, loByte_append hi lo⟩

/-- The host reads a response after exactly two of the opcodes (R81). -/
theorem isSome_responseWords_iff (opcode : Word) :
    (responseWords opcode).isSome = true ↔ opcode = opDataReadyQuery ∨ opcode = opReadMeasurements := by
  unfold responseWords
  split
  · simp [*]
  · split <;> simp [*]

theorem responseBearing_iff (frame : List Byte) : responseBearing frame = true ↔ CommandsResponse frame := by
  match frame with
  | [] => simp [responseBearing, CommandsResponse]
  | [b] => simp [responseBearing, CommandsResponse, List.cons_prefix_cons]
  | hi :: lo :: rest =>
    simp only [CommandsResponse, opcode_heads_frame_iff]
    exact isSome_responseWords_iff (hi ++ lo)

theorem not_sequenceOpen_nil : ¬ SequenceOpen [] := by
  rintro ⟨h, addr, frame, rest, hsplit, -, -⟩
  simp at hsplit

/-- A sequence is open after one more event exactly when that event opens it, or when it was open before and the event is no
read (R104). -/
theorem sequenceOpen_concat_iff (h : List Event) (e : Event) :
    SequenceOpen (h ++ [e]) ↔
      (∃ addr frame, e = .wr addr frame .ok ∧ CommandsResponse frame) ∨
        (SequenceOpen h ∧ ∀ a n rs r, e ≠ .rd a n rs r) := by
  constructor
  · rintro ⟨h₀, addr, frame, rest, hsplit, hresp, hread⟩
    rcases rest.eq_nil_or_concat' with rfl | ⟨rest, last, rfl⟩
    · rw [List.append_nil] at hsplit
      obtain ⟨-, he⟩ := List.append_inj' hsplit rfl
      exact .inl ⟨addr, frame, List.singleton_inj.mp he, hresp⟩
    · rw [← List.append_assoc] at hsplit
      obtain ⟨hh, he⟩ := List.append_inj' hsplit rfl
      obtain rfl := List.singleton_inj.mp he
      refine .inr ⟨⟨h₀, addr, frame, rest, hh, hresp, fun a n rs r hm => ?_⟩, fun a n rs r he => ?_⟩
      · exact hread a n rs r (List.mem_append_left _ hm)
      · exact hread a n rs r (he ▸ List.mem_append_right _ List.mem_cons_self)
  · rintro (⟨addr, frame, rfl, hresp⟩ | ⟨⟨h₀, addr, frame, rest, rfl, hresp, hread⟩, hno⟩)
    · exact ⟨h, addr, frame, [], (List.append_nil _).symm, hresp, fun _ _ _ _ => List.not_mem_nil⟩
    · refine ⟨h₀, addr, frame, rest ++ [e], List.append_assoc _ _ _, hresp, fun a n rs r hm => ?_⟩
      rcases List.mem_append.mp hm with hm | hm
      · exact hread a n rs r hm
      · exact hno a n rs r (List.mem_singleton.mp hm).symm

/-- The fold over the history computes R104's open sequence. -/
theorem sequenceOpen_iff (h : List Event) : sequenceOpen h = true ↔ SequenceOpen h := by
  induction h using List.reverseRecOn with
  | nil => exact iff_of_false Bool.false_ne_true not_sequenceOpen_nil
  | append_singleton h e ih =>
    rw [sequenceOpen_append, sequenceOpen_concat_iff, ← ih]
    match e with
    | .wr addr frame .ok => simp [openAfter, responseBearing_iff, or_comm]
    | .wr addr frame .fail => simp [openAfter]
    | .rd addr n rs r =>
      refine iff_of_false Bool.false_ne_true ?_
      rintro (⟨addr', frame, he, -⟩ | ⟨-, hno⟩)
      · cases he
      · exact hno addr n rs r rfl
    | .wait => simp [openAfter]

/-! ### R103 and R105: a command and the wait after it -/

@[simp] theorem noCommandPending_append_wait (h : List Event) : noCommandPending (h ++ [.wait]) = noCommandPending h := by
  simp [noCommandPending, isTransaction]

@[simp] theorem endsInWriteWithoutWait_append_wait (h : List Event) :
    endsInWriteWithoutWait (h ++ [.wait]) = false := by
  simp [endsInWriteWithoutWait]

/-- A command is pending exactly when the history ends in a successful write and any number of `Wait` events (R105). -/
theorem noCommandPending_eq_false_iff (h : List Event) :
    noCommandPending h = false ↔
      ∃ h₀ addr frame j, h = h₀ ++ [.wr addr frame .ok] ++ List.replicate j .wait := by
  constructor
  · intro pending
    induction h using List.reverseRecOn with
    | nil => cases pending
    | append_singleton h e ih =>
      match e with
      | .wr addr frame .ok => exact ⟨h, addr, frame, 0, (List.append_nil _).symm⟩
      | .wr addr frame .fail => simp [noCommandPending, isTransaction] at pending
      | .rd addr n rs r => simp [noCommandPending, isTransaction] at pending
      | .wait =>
        rw [noCommandPending_append_wait] at pending
        obtain ⟨h₀, addr, frame, j, rfl⟩ := ih pending
        exact ⟨h₀, addr, frame, j + 1, by rw [List.replicate_succ', List.append_assoc]⟩
  · rintro ⟨h₀, addr, frame, j, rfl⟩
    induction j with
    | zero => simp [noCommandPending, isTransaction]
    | succ j ih =>
      rw [List.replicate_succ', ← List.append_assoc, noCommandPending_append_wait]
      exact ih

/-- After a successful write, R103 asks for one `Wait` or more. -/
theorem endsInWriteWithoutWait_append_waits (h : List Event) (addr : BusAddr) (frame : List Byte) (j : Nat) :
    endsInWriteWithoutWait (h ++ [.wr addr frame .ok] ++ List.replicate j .wait) = (j == 0) := by
  cases j with
  | zero => simp [endsInWriteWithoutWait]
  | succ j =>
    rw [List.replicate_succ', ← List.append_assoc, endsInWriteWithoutWait_append_wait]
    rfl

/-- A read keeps R103 and R105 together exactly when a command and one `Wait` or more stand before it. -/
theorem commandedAndWaited_iff (h : List Event) :
    CommandedAndWaited h ↔ endsInWriteWithoutWait h = false ∧ noCommandPending h = false := by
  constructor
  · rintro ⟨h₀, addr, frame, j, rfl⟩
    exact ⟨endsInWriteWithoutWait_append_waits h₀ addr frame (j + 1),
      (noCommandPending_eq_false_iff _).mpr ⟨h₀, addr, frame, j + 1, rfl⟩⟩
  · rintro ⟨waited, commanded⟩
    obtain ⟨h₀, addr, frame, j, rfl⟩ := (noCommandPending_eq_false_iff h).mp commanded
    rw [endsInWriteWithoutWait_append_waits] at waited
    cases j with
    | zero => cases waited
    | succ j => exact ⟨h₀, addr, frame, j, rfl⟩

/-! ### The host's obligations over the whole history -/

/-- What the model evaluates at each event is the host's obligation (R103 to R105). -/
theorem breaksObligation_eq_false_iff (h : List Event) (e : Event) : breaksObligation h e = false ↔ Respects h e := by
  match e with
  | .wr addr frame r =>
    simp only [breaksObligation, Respects, ← sequenceOpen_iff, Bool.not_eq_true]
  | .rd addr n rs r =>
    simp only [breaksObligation, Respects, commandedAndWaited_iff, Bool.or_eq_false_iff]
  | .wait => exact iff_of_true rfl trivial

theorem cleanHistory_nil : CleanHistory [] := by
  intro before e after hsplit
  simp at hsplit

/-- A history stays clean exactly when the event appended to it keeps the obligation. -/
theorem cleanHistory_concat_iff (h : List Event) (e : Event) :
    CleanHistory (h ++ [e]) ↔ CleanHistory h ∧ Respects h e := by
  constructor
  · intro clean
    refine ⟨fun before e' after hsplit => clean before e' (after ++ [e]) ?_, clean h e [] rfl⟩
    rw [hsplit, List.append_assoc, List.cons_append]
  · rintro ⟨clean, respects⟩ before e' after hsplit
    rcases after.eq_nil_or_concat' with rfl | ⟨after, last, rfl⟩
    · obtain ⟨rfl, he⟩ := List.append_inj' hsplit rfl
      obtain rfl := List.singleton_inj.mp he
      exact respects
    · rw [← List.cons_append, ← List.append_assoc] at hsplit
      exact clean before e' after (List.append_inj' hsplit rfl).1

end Sys2Proof.Machine
end

section
/-! O37, O33, O34, O42. What a step makes of the history, the hazard bit and the configuration (10_state.md R19, R23, R24;
20_memory.md R36), said once; the statements about them follow. -/

namespace Sys2Proof.Machine

/-- What a completed step was: idle, a `Wait`, a power cycle, or an effect of an instruction. -/
theorem next_cases {s t : State} (h : step s = .next t) :
    t = s ∨ (∃ rest, s.pending = .wait :: rest ∧ t = State.wait { s with pending := rest }) ∨
      (∃ rest, s.pending = .powerCycle :: rest ∧ t = State.powerCycle { s with pending := rest }) ∨
      ∃ i rest, Effect i { s with pending := rest } t := by
  obtain ⟨-, h'⟩ | ⟨rest, hp, h'⟩ | ⟨rest, hp, h'⟩ | ⟨e, i, rest, -, -, h'⟩ | ⟨e, why, rest, -, -, h'⟩ := step_cases s
  · exact .inl (Host.Outcome.next.inj (h.symm.trans h'))
  · exact .inr (.inl ⟨rest, hp, Host.Outcome.next.inj (h.symm.trans h')⟩)
  · exact .inr (.inr (.inl ⟨rest, hp, Host.Outcome.next.inj (h.symm.trans h')⟩))
  · exact .inr (.inr (.inr ⟨i, rest, effect_of_exec (h'.symm.trans h)⟩))
  · exact nomatch h.symm.trans h'

/-- From `s` to `t` at most one event was appended to the history, and `hazard` was set where that event breaks an obligation
and left alone else (R23, R24). -/
inductive RecordsAtMostOne (s t : State) : Prop where
  | none (hhist : t.hist = s.hist) (hhazard : t.hazard = s.hazard)
  | one (e : Event) (hhist : t.hist = s.hist ++ [e]) (hhazard : t.hazard = (s.hazard || breaksObligation s.hist e))

/-- Everything a read does, under both policies and however the transport answers: the registers, the outcome and the index of
free values it leaves depend on the configuration, the index it finds and the transport's answer alone (R69, R70, R74). A `crc`
of `none` is a register left alone. -/
theorem State.readGroups_uniform (c : Configuration) (k count : Nat) (rs : Bool) (pack : List Word → OpResult)
    (r : ReadResult) : ∃ crc rx outcome fresh, ∀ s : State, s.config = c → s.fresh = k →
      s.readResult (readLength count) rs = r →
      s.readGroups count rs pack = State.record { s with
        crc := Option.getD crc s.crc
        rx := rx
        readAnswers := s.readAnswers.tail
        outcomes := s.outcomes ++ [outcome]
        fresh := fresh } (.rd s.config.devAddr (readLength count) rs r) := by
  cases r with
  | fail =>
    refine ⟨none, freeRx (k + 1) c.maxBlockWords, .err (.transport .read (readLength count)), k + 2,
      fun s hc hk hr => ?_⟩
    rw [State.readGroups_fail s pack hr, hc, hk]
    rfl
  | ok bytes =>
    cases hp : c.checkPolicy with
    | lenient =>
      refine ⟨none, freeRx (k + 1) c.maxBlockWords, .ok (pack (words bytes count)), k + 2, fun s hc hk hr => ?_⟩
      rw [State.readGroups_lenient s pack (hc ▸ hp) hr, hc, hk]
      rfl
    | strict =>
      refine ⟨some (Config.freeCrc (k + 1)), freeRx (k + 2) c.maxBlockWords,
        strictOutcome (State.strictCheck count 0 ((State.resetWith c).loadRx bytes)).2 (pack (words bytes count)), k + 3,
        fun s hc hk hr => ?_⟩
      have verdict := State.strictCheck_congr
        (show (s.loadRx bytes).rx = ((State.resetWith c).loadRx bytes).rx from rfl) count 0
      rw [State.readGroups_strict s pack (hc ▸ hp) hr, hc, hk, verdict]
      rfl

theorem State.readGroups_records (s : State) (count : Nat) (rs : Bool) (pack : List Word → OpResult) :
    RecordsAtMostOne s (s.readGroups count rs pack) := by
  obtain ⟨crc, rx, outcome, fresh, everything⟩ := State.readGroups_uniform s.config s.fresh count rs pack _
  rw [everything s rfl rfl rfl]
  exact .one _ rfl rfl

/-- An instruction makes at most one transaction (R36). -/
theorem Effect.records {i : Instr} {s t : State} (effect : Effect i s t) : RecordsAtMostOne s t := by
  cases effect with
  | refused r h => exact .none rfl rfl
  | checksum v h => exact .none rfl rfl
  | plain opcode h => exact .one _ rfl rfl
  | param opcode p h => exact .one _ rfl rfl
  | readWord rs h hi => exact s.readGroups_records _ _ _
  | readBlock count h1 h2 hi => exact s.readGroups_records _ _ _

theorem Effect.config {i : Instr} {s t : State} (effect : Effect i s t) : t.config = s.config := by
  cases effect with
  | refused r h => rfl
  | checksum v h => rfl
  | plain opcode h => rfl
  | param opcode p h => rfl
  | readWord rs h hi => exact (s.readGroups_appends _ _ _).1
  | readBlock count h1 h2 hi => exact (s.readGroups_appends _ _ _).1

/-- Every step but a power cycle appends at most one event and can only set `hazard`. -/
theorem step_records {s t : State} (h : step s = .next t) :
    (∃ rest, s.pending = .powerCycle :: rest ∧ t = State.powerCycle { s with pending := rest }) ∨ RecordsAtMostOne s t := by
  obtain rfl | ⟨rest, -, rfl⟩ | cycle | ⟨i, rest, effect⟩ := next_cases h
  · exact .inr (.none rfl rfl)
  · exact .inr (.one .wait rfl rfl)
  · exact .inl cycle
  · have taken : RecordsAtMostOne { s with pending := rest } t := effect.records
    cases taken with
    | none hhist hhazard => exact .inr (.none hhist hhazard)
    | one e hhist hhazard => exact .inr (.one e hhist hhazard)

theorem step_records_of_no_powerCycle {s t : State} (h : step s = .next t)
    (hp : ∀ rest, s.pending ≠ .powerCycle :: rest) : RecordsAtMostOne s t := by
  obtain ⟨rest, cycle, -⟩ | records := step_records h
  · exact absurd cycle (hp rest)
  · exact records

/-- Recording at most one event keeps `hazard` exact: the event that is appended is judged against the whole history before
it. -/
theorem RecordsAtMostOne.hazardExact {s t : State} (records : RecordsAtMostOne s t) (hexact : s.HazardExact) :
    t.HazardExact := by
  unfold State.HazardExact at hexact ⊢
  cases records with
  | none hhist hhazard => rw [hhist, hhazard, hexact]
  | one e hhist hhazard =>
    rw [hhist, hhazard, Bool.or_eq_false_iff, cleanHistory_concat_iff, breaksObligation_eq_false_iff, hexact]

theorem State.hazardExact_powerCycle (s : State) : s.powerCycle.HazardExact :=
  iff_of_true rfl cleanHistory_nil

/-- Settles O37: a step appends at most one event, judged against the whole history before it, or starts again from the clean
empty history. -/
theorem stepKeepsHazardExact : Obligations.StepKeepsHazardExact := by
  intro s t hexact hstep
  obtain ⟨rest, -, rfl⟩ | records := step_records hstep
  · exact State.hazardExact_powerCycle _
  · exact records.hazardExact hexact

/-- Settles O33: recording an event can only set `hazard`. -/
theorem hazardIsSticky : Obligations.HazardIsSticky := by
  intro s t hstep hset hp
  cases step_records_of_no_powerCycle hstep hp with
  | none hhist hhazard => rw [hhazard, hset]
  | one e hhist hhazard => rw [hhazard, hset, Bool.true_or]

/-- Settles O34, by what a step that is no power cycle records. -/
theorem historyOnlyGrowsByOneEvent : Obligations.HistoryOnlyGrowsByOneEvent := by
  intro s t hstep hp
  cases step_records_of_no_powerCycle hstep hp with
  | none hhist hhazard => exact .inl hhist
  | one e hhist hhazard => exact .inr ⟨e, hhist⟩

/-- Settles O42, by the cases of a step; the reset that a power cycle is takes the configuration it finds. -/
theorem configurationNeverChanges : Obligations.ConfigurationNeverChanges := by
  intro s t hstep
  obtain rfl | ⟨rest, -, rfl⟩ | ⟨rest, -, rfl⟩ | ⟨i, rest, effect⟩ := next_cases hstep
  · rfl
  · rfl
  · rfl
  · exact effect.config

end Sys2Proof.Machine
end

section
/-! O35, O36. Two runs of one instruction (10_state.md R18, R23, R24): a relation that every effect gives of two states is one
that the instruction gives of them, whichever effect it takes. -/

namespace Sys2Proof.Machine

/-- Each operation that an instruction can come to leaves `P`-related states, done from `s` and from `s'`. -/
structure EffectsRelated (P : State → State → Prop) (s s' : State) : Prop where
  config : s'.config = s.config
  refused : ∀ r, P (s.refuse r) (s'.refuse r)
  checksum : ∀ v r, P ((s.runCrc v).discardCrc.accept r) ((s'.runCrc v).discardCrc.accept r)
  plain : ∀ frame, P (s.sendFrame frame) (s'.sendFrame frame)
  param : ∀ p frame, P ((s.runCrc p).sendFrame frame).discardCrc ((s'.runCrc p).sendFrame frame).discardCrc
  read : ∀ count rs pack, P (s.readGroups count rs pack) (s'.readGroups count rs pack)

section
variable {P : State → State → Prop} {s s' : State} (related : EffectsRelated P s s')
include related

theorem EffectsRelated.sendPlain (opcode : Nat) : P (s.sendPlain opcode) (s'.sendPlain opcode) := by
  unfold State.sendPlain
  split
  · exact related.refused _
  · exact related.plain _

theorem EffectsRelated.sendParam (opcode param : Nat) : P (s.sendParam opcode param) (s'.sendParam opcode param) := by
  unfold State.sendParam
  split
  · exact related.refused _
  · split
    · exact related.refused _
    · exact related.param _ _

/-- Which effect an instruction takes depends on its operands and the configuration alone, so that the two runs take the same. -/
theorem EffectsRelated.exec_related (i : Instr) : ∃ t t', exec i s = .next t ∧ exec i s' = .next t' ∧ P t t' := by
  cases i with
  | crc8 value =>
    refine ⟨_, _, rfl, rfl, ?_⟩
    split
    · exact related.refused _
    · exact related.checksum _ _
  | sendPlain opcode => exact ⟨_, _, rfl, rfl, related.sendPlain _⟩
  | sendParam opcode param => exact ⟨_, _, rfl, rfl, related.sendParam _ _⟩
  | readWord rs =>
    refine ⟨_, _, rfl, rfl, ?_⟩
    split
    · exact related.refused _
    · exact related.read _ _ _
  | readBlock count =>
    refine ⟨_, _, rfl, rfl, ?_⟩
    rw [related.config]
    split
    · exact related.refused _
    · exact related.read _ _ _
  | reservedOp5 => exact ⟨_, _, rfl, rfl, related.refused _⟩
  | reservedOp6 => exact ⟨_, _, rfl, rfl, related.refused _⟩
  | reservedOp7 => exact ⟨_, _, rfl, rfl, related.refused _⟩
  | dataReadyQuery => exact ⟨_, _, rfl, rfl, related.sendPlain _⟩
  | readMeasurements => exact ⟨_, _, rfl, rfl, related.sendPlain _⟩
  | startCont => exact ⟨_, _, rfl, rfl, related.sendPlain _⟩
  | stopCont => exact ⟨_, _, rfl, rfl, related.sendPlain _⟩
  | calibrate param => exact ⟨_, _, rfl, rfl, related.sendParam _ _⟩
  | factoryReset => exact ⟨_, _, rfl, rfl, related.sendPlain _⟩

/-- The run of an instruction from `s'` follows its run from `s`. -/
theorem EffectsRelated.exec_follows {i : Instr} {t : State} (h : exec i s = .next t) :
    ∃ t', exec i s' = .next t' ∧ P t t' := by
  obtain ⟨u, t', hu, ht', hP⟩ := related.exec_related i
  obtain rfl := Host.Outcome.next.inj (h.symm.trans hu)
  exact ⟨t', ht', hP⟩

end

/-- The second state differs from the first in nothing but `hist` and `hazard`. -/
def SameButHistory (t t' : State) : Prop := ∃ hist hazard, t' = { t with hist := hist, hazard := hazard }

/-- The second state differs from the first in nothing but the datapath registers. -/
def SameButRegisters (t t' : State) : Prop := ∃ crc tx rx, t' = { t with crc := crc, tx := tx, rx := rx }

/-- A write whose answer is given does not see the history. -/
theorem SameButHistory.sendFrame {s s' : State} (same : SameButHistory s s') (given : s.writeAnswers ≠ [])
    (frame : List Byte) : SameButHistory (s.sendFrame frame) (s'.sendFrame frame) := by
  obtain ⟨hist, hazard, rfl⟩ := same
  obtain ⟨a, rest, ha⟩ := List.exists_cons_of_ne_nil given
  have result : ({ s with hist := hist, hazard := hazard } : State).writeResult frame = s.writeResult frame :=
    (State.writeResult_of_answer { s with hist := hist, hazard := hazard } ha frame).trans
      (s.writeResult_of_answer ha frame).symm
  rw [State.sendFrame_eq, State.sendFrame_eq, result]
  exact ⟨_, _, rfl⟩

/-- A read whose answer is given does not see the history. -/
theorem SameButHistory.readGroups {s s' : State} (same : SameButHistory s s') (given : s.readAnswers ≠ [])
    (count : Nat) (rs : Bool) (pack : List Word → OpResult) :
    SameButHistory (s.readGroups count rs pack) (s'.readGroups count rs pack) := by
  obtain ⟨hist, hazard, rfl⟩ := same
  obtain ⟨a, rest, ha⟩ := List.exists_cons_of_ne_nil given
  obtain ⟨crc, rx, outcome, fresh, everything⟩ :=
    State.readGroups_uniform s.config s.fresh count rs pack (readResultOf (readLength count) a)
  rw [everything s rfl rfl (s.readResult_of_answer ha _ _),
    everything { s with hist := hist, hazard := hazard } rfl rfl
      (State.readResult_of_answer { s with hist := hist, hazard := hazard } ha _ _)]
  exact ⟨_, _, rfl⟩

/-- A read replaces the receive buffer and sees none of the registers. -/
theorem SameButRegisters.readGroups {s s' : State} (same : SameButRegisters s s')
    (count : Nat) (rs : Bool) (pack : List Word → OpResult) :
    SameButRegisters (s.readGroups count rs pack) (s'.readGroups count rs pack) := by
  obtain ⟨crc, tx, rx, rfl⟩ := same
  obtain ⟨crc', rx', outcome, fresh, everything⟩ := State.readGroups_uniform s.config s.fresh count rs pack _
  rw [everything s rfl rfl rfl, everything { s with crc := crc, tx := tx, rx := rx } rfl rfl rfl]
  exact ⟨_, _, _, rfl⟩

/-- Settles O35: with the answers given, the history and the hazard bit go into no effect's result. -/
theorem historyAndHazardChangeNoResult : Obligations.HistoryAndHazardChangeNoResult := by
  intro i s t hist hazard writesGiven readsGiven h
  have same : SameButHistory s { s with hist := hist, hazard := hazard } := ⟨hist, hazard, rfl⟩
  have related : EffectsRelated SameButHistory s { s with hist := hist, hazard := hazard } :=
    { config := rfl
      refused := fun _ => ⟨hist, hazard, rfl⟩
      checksum := fun _ _ => ⟨hist, hazard, rfl⟩
      plain := same.sendFrame writesGiven
      param := fun p frame => by
        have ran : SameButHistory (s.runCrc p) (State.runCrc { s with hist := hist, hazard := hazard } p) :=
          ⟨hist, hazard, rfl⟩
        obtain ⟨hist', hazard', sent⟩ := ran.sendFrame writesGiven frame
        exact ⟨hist', hazard', congrArg State.discardCrc sent⟩
      read := same.readGroups readsGiven }
  obtain ⟨t', ht', hist', hazard', rfl⟩ := related.exec_follows h
  exact ⟨hist', hazard', ht'⟩

/-- Settles O36: a write assembles its frame in `tx` before it sends it, the Checksum Unit loads `crc` before it runs, and a read
replaces `rx`. -/
theorem operationsIgnoreEarlierRegisterContents : Obligations.OperationsIgnoreEarlierRegisterContents := by
  intro i s t crc tx rx h
  have same : SameButRegisters s { s with crc := crc, tx := tx, rx := rx } := ⟨crc, tx, rx, rfl⟩
  have related : EffectsRelated SameButRegisters s { s with crc := crc, tx := tx, rx := rx } :=
    { config := rfl
      refused := fun _ => ⟨_, _, _, rfl⟩
      checksum := fun _ _ => ⟨_, _, _, rfl⟩
      plain := fun _ => ⟨_, _, _, rfl⟩
      param := fun _ _ => ⟨_, _, _, rfl⟩
      read := same.readGroups }
  obtain ⟨t', ht', crc', tx', rx', rfl⟩ := related.exec_follows h
  exact ⟨crc', tx', rx', ht'⟩

end Sys2Proof.Machine
end

section
/-! O40. The shape of the reset state (10_state.md R18, R19). -/

namespace Sys2Proof.Machine

/-- Settles O40: `tx` is empty, `rx` holds one group, which every legal configuration allows, and the history is empty. -/
theorem resetHasTheShape : Obligations.ResetHasTheShape := by
  intro c legal
  have oneGroup : 3 ≤ 3 * c.maxBlockWords := Nat.le_mul_of_pos_right 3 (maxBlockWords_pos_of_legal legal)
  exact ⟨legal, .inl rfl, ⟨Nat.mod_self 3, Nat.le_refl 3, oneGroup⟩, fun _ he => nomatch he⟩

end Sys2Proof.Machine
end

section
/-! O22. What the transport's count makes of a transaction (10_state.md R22; 20_memory.md R32). -/

namespace Sys2Proof.Machine

theorem writeResultOf_short {n k : Nat} (h : k < n) : writeResultOf n (.moved k) = .fail := if_pos h

theorem writeResultOf_full (n : Nat) : writeResultOf n (.moved n) = .ok := if_neg (Nat.lt_irrefl n)

theorem readResultOf_short {n : Nat} {bytes : List Byte} (h : bytes.length < n) :
    readResultOf n (.moved bytes) = .fail := if_pos h

/-- A report of exactly the requested length has nothing cut off. -/
theorem readResultOf_full (bytes : List Byte) : readResultOf bytes.length (.moved bytes) = .ok bytes := by
  simp only [readResultOf, Nat.lt_irrefl, if_false, List.take_length]

/-- Settles O22: the result of a transaction with a given answer is what the answer's count makes of it. -/
theorem shortTransfersFailAndFullOnesSucceed : Obligations.ShortTransfersFailAndFullOnesSucceed := by
  refine ⟨fun s frame rest given => ?_, fun s frame k rest given => ⟨fun short => ?_, ?_⟩,
    fun s n rs rest given => ?_, fun s n rs bytes rest given => ⟨fun short => ?_, ?_⟩⟩
  · exact s.writeResult_of_answer given frame
  · exact (s.writeResult_of_answer given frame).trans (writeResultOf_short short)
  · rintro rfl
    exact (s.writeResult_of_answer given frame).trans (writeResultOf_full _)
  · exact s.readResult_of_answer given n rs
  · exact (s.readResult_of_answer given n rs).trans (readResultOf_short short)
  · rintro rfl
    exact (s.readResult_of_answer given _ rs).trans (readResultOf_full bytes)

end Sys2Proof.Machine
end

section
/-! O44. The step of a submitted instruction (20_memory.md R36). -/

namespace Sys2Proof.Machine

theorem State.takeAction_of_pending {s : State} {a : HostAction} {rest : List HostAction} (hp : s.pending = a :: rest) :
    s.takeAction = some (a, { s with pending := rest }) := by
  simp only [State.takeAction, hp]

/-- Settles O44: the step takes the submitted action and decodes it. -/
theorem stepRunsTheDecodedInstruction : Obligations.StepRunsTheDecodedInstruction := by
  intro s e i rest hp hd
  simp only [step, State.takeAction_of_pending hp, hd]

end Sys2Proof.Machine
end

section
/-! O48, O49, O50, O23, O10. The request interface and the device commands (30_encoding.md R42, R43, R51, R53, R57). -/

namespace Sys2Proof.Machine

/-- Settles O48: each code is compared with the codes before it and then found. -/
theorem selectCodePicksTheOperation : Obligations.SelectCodePicksTheOperation :=
  fun _ _ _ _ _ => ⟨rfl, rfl, rfl, rfl, rfl, rfl, rfl, rfl⟩

/-- Settles O49, by evaluating the decoder on the eight words. -/
theorem opcodeWordsDecodeToTheirCommands : Obligations.OpcodeWordsDecodeToTheirCommands := by
  unfold Obligations.OpcodeWordsDecodeToTheirCommands
  decide

/-- Settles O50: the encoding of each instruction names its own arm of the decoder and carries the operands that arm reads. -/
theorem encodedInstructionsDecodeBack : Obligations.EncodedInstructionsDecodeBack := by
  intro i
  cases i with
  | crc8 value => rfl
  | sendPlain opcode => rfl
  | sendParam opcode param => rfl
  | readWord rs => rfl
  | readBlock count => rfl
  | reservedOp5 => rfl
  | reservedOp6 => rfl
  | reservedOp7 => rfl
  | dataReadyQuery => rfl
  | readMeasurements => rfl
  | startCont => rfl
  | stopCont => rfl
  | calibrate param => rfl
  | factoryReset => rfl

/-- Settles O23: the codes pick the reserved instructions by the table of R43, and each of these is a bare refusal. -/
theorem reservedCodesAreRefused : Obligations.ReservedCodesAreRefused := by
  refine ⟨fun r => ?_, fun s i hi => ?_⟩
  · obtain ⟨op, opcode, param, value, rs, count⟩ := r
    obtain ⟨-, -, -, -, -, five, six, seven⟩ := selectCodePicksTheOperation opcode param value rs count
    refine ⟨?_, ?_, ?_⟩
    · rintro rfl
      exact five
    · rintro rfl
      exact six
    · rintro rfl
      exact seven
  · simp only [List.mem_cons, List.not_mem_nil, or_false] at hi
    obtain rfl | rfl | rfl := hi
    · rfl
    · rfl
    · rfl

/-- Settles O10: a device command and its expansion run the same write, and a pseudo-instruction is the list of its actions. -/
theorem pseudoInstructionsAreTheirExpansions : Obligations.PseudoInstructionsAreTheirExpansions :=
  ⟨fun _ => ⟨rfl, rfl, rfl, rfl, fun _ => rfl, rfl⟩, rfl, rfl, rfl, rfl, fun _ => rfl, rfl, rfl, rfl, rfl⟩

end Sys2Proof.Machine
end

section
/-! O51. The wire frames (30_encoding.md R45, R46, R50). `Framing` says which opcode and operands a frame carries and which
operation writes it; the encoder and the decoder of frames are each described by it, and the round trip follows. -/

namespace Sys2Proof.Machine

/-- The two instructions put the same frame on the bus and have the same effect. -/
def SameWrite (i j : Instr) : Prop := encodeFrame i = encodeFrame j ∧ ∀ s, exec i s = exec j s

/-- The frame carries the opcode and the operands, and the operation is the one that frames them (R45, R46, R55). -/
inductive Framing (opcode : Word) : List Nat → Instr → List Byte → Prop where
  | plain : Framing opcode [] (.sendPlain opcode.toNat) (plainFrame opcode)
  | param (p : Word) :
    Framing opcode [p.toNat] (.sendParam opcode.toNat p.toNat) (paramFrame opcode p (crc8 p))

/-- A number within the range of an operand is a word (R54). -/
theorem exists_word_of_le {n : Nat} (h : n ≤ wordMax) : ∃ w : Word, n = w.toNat :=
  ⟨BitVec.ofNat 16 n, (Nat.mod_eq_of_lt (Nat.lt_succ_of_le h)).symm⟩

theorem toNat_le_wordMax (w : Word) : w.toNat ≤ wordMax := Nat.le_of_lt_succ w.isLt

@[simp] theorem plainFrameOf_toNat (opcode : Word) : plainFrameOf opcode.toNat = some (plainFrame opcode) := by
  rw [plainFrameOf, if_pos (toNat_le_wordMax opcode), BitVec.ofNat_toNat, BitVec.setWidth_eq]

@[simp] theorem paramFrameOf_toNat (opcode p : Word) :
    paramFrameOf opcode.toNat p.toNat = some (paramFrame opcode p (crc8 p)) := by
  rw [paramFrameOf, if_pos ⟨toNat_le_wordMax opcode, toNat_le_wordMax p⟩]
  simp only [BitVec.ofNat_toNat, BitVec.setWidth_eq]

/-- Only an opcode within its range is framed (R54). -/
theorem le_of_plainFrameOf {opcode : Nat} {frame : List Byte} (h : plainFrameOf opcode = some frame) :
    opcode ≤ wordMax := by
  by_contra above
  rw [plainFrameOf, if_neg above] at h
  cases h

/-- Only an opcode and a parameter within their ranges are framed (R54). -/
theorem le_of_paramFrameOf {opcode param : Nat} {frame : List Byte} (h : paramFrameOf opcode param = some frame) :
    opcode ≤ wordMax ∧ param ≤ wordMax := by
  by_contra above
  rw [paramFrameOf, if_neg above] at h
  cases h

/-! ### The encoder -/

theorem framing_of_plainFrameOf {opcode : Word} {frame : List Byte} (h : plainFrameOf opcode.toNat = some frame) :
    Framing opcode [] (.sendPlain opcode.toNat) frame := by
  rw [plainFrameOf_toNat] at h
  exact Option.some.inj h ▸ .plain

theorem framing_of_paramFrameOf {opcode : Word} {param : Nat} {frame : List Byte}
    (h : paramFrameOf opcode.toNat param = some frame) :
    Framing opcode [param] (.sendParam opcode.toNat param) frame := by
  obtain ⟨p, rfl⟩ := exists_word_of_le (le_of_paramFrameOf h).2
  rw [paramFrameOf_toNat] at h
  exact Option.some.inj h ▸ .param p

/-- A frame that is written is the framing of the device command that writes it, or of the operation. -/
theorem exists_framing_of_encodeFrame {i : Instr} {frame : List Byte} (h : encodeFrame i = some frame) :
    ∃ opcode operands op, Framing opcode operands op frame ∧ (encode i = .command opcode operands ∨ i = op) := by
  cases i with
  | crc8 value => cases h
  | sendPlain opcode =>
    obtain ⟨opcode, rfl⟩ := exists_word_of_le (le_of_plainFrameOf h)
    exact ⟨opcode, _, _, framing_of_plainFrameOf h, .inr rfl⟩
  | sendParam opcode param =>
    obtain ⟨opcode, rfl⟩ := exists_word_of_le (le_of_paramFrameOf h).1
    exact ⟨opcode, _, _, framing_of_paramFrameOf h, .inr rfl⟩
  | readWord rs => cases h
  | readBlock count => cases h
  | reservedOp5 => cases h
  | reservedOp6 => cases h
  | reservedOp7 => cases h
  | dataReadyQuery => exact ⟨opDataReadyQuery, _, _, framing_of_plainFrameOf h, .inl rfl⟩
  | readMeasurements => exact ⟨opReadMeasurements, _, _, framing_of_plainFrameOf h, .inl rfl⟩
  | startCont => exact ⟨opStartCont, _, _, framing_of_plainFrameOf h, .inl rfl⟩
  | stopCont => exact ⟨opStopCont, _, _, framing_of_plainFrameOf h, .inl rfl⟩
  | calibrate param => exact ⟨opCalibrate, _, _, framing_of_paramFrameOf h, .inl rfl⟩
  | factoryReset => exact ⟨opFactoryReset, _, _, framing_of_plainFrameOf h, .inl rfl⟩

section
variable {opcode : Word} {operands : List Nat} {op : Instr} {frame : List Byte}

theorem Framing.encodeFrame_eq (framing : Framing opcode operands op frame) : encodeFrame op = some frame := by
  cases framing with
  | plain => exact plainFrameOf_toNat opcode
  | param p => exact paramFrameOf_toNat opcode p

/-- A device command writes as the operation that frames its opcode and operands (R57): five commands have an encoding without an
operand, and `CALIBRATE` alone has one with a parameter. -/
theorem Framing.sameWrite_of_command (framing : Framing opcode operands op frame) {i : Instr}
    (h : encode i = .command opcode operands) : SameWrite i op := by
  cases framing with
  | plain => cases i <;> cases h <;> exact ⟨rfl, fun _ => rfl⟩
  | param p =>
    cases i <;> cases h
    exact ⟨rfl, fun _ => rfl⟩

/-! ### The decoder -/

/-- The device command that was found, or else the operation. -/
def commandOr (op : Instr) : Except DecodeError Instr → Instr
  | .ok i => i
  | .error _ => op

/-- A frame is read as the device command it carries, where there is one, and else as the operation (R50, R51, R55). -/
theorem Framing.decodeFrame_eq (framing : Framing opcode operands op frame) :
    decodeFrame frame = .ok (commandOr op (decodeCommand opcode operands)) := by
  cases framing with
  | plain =>
    simp only [plainFrame, decodeFrame, hiByte_append_loByte]
    cases decodeCommand opcode [] <;> rfl
  | param p =>
    simp only [paramFrame, decodeFrame, hiByte_append_loByte, if_true]
    cases decodeCommand opcode [p.toNat] <;> rfl

/-- What a frame is read as writes as the operation. -/
theorem Framing.sameWrite_commandOr (framing : Framing opcode operands op frame) :
    SameWrite (commandOr op (decodeCommand opcode operands)) op := by
  cases hd : decodeCommand opcode operands with
  | ok i => exact framing.sameWrite_of_command (decodeCommand_ok hd)
  | error why => exact ⟨rfl, fun _ => rfl⟩

end

/-- Two bytes are the `PLAIN` frame of the word they make (R45). -/
theorem framing_two_bytes (b0 b1 : Byte) : Framing (b0 ++ b1) [] (.sendPlain (b0 ++ b1).toNat) [b0, b1] := by
  have framing := Framing.plain (opcode := b0 ++ b1)
  rwa [plainFrame, hiByte_append, loByte_append] at framing

/-- Four bytes and the right check byte are the `PARAM` frame of the two words they make (R46). -/
theorem framing_five_bytes (b0 b1 b2 b3 : Byte) :
    Framing (b0 ++ b1) [(b2 ++ b3).toNat] (.sendParam (b0 ++ b1).toNat (b2 ++ b3).toNat)
      [b0, b1, b2, b3, crc8 (b2 ++ b3)] := by
  have framing := Framing.param (opcode := b0 ++ b1) (b2 ++ b3)
  rwa [paramFrame, hiByte_append, loByte_append, hiByte_append, loByte_append] at framing

/-- Only a frame of R45 or of R46, its check byte right, is decoded. -/
theorem exists_framing_of_decodeFrame {bytes : List Byte} {i : Instr} (h : decodeFrame bytes = .ok i) :
    ∃ opcode operands op, Framing opcode operands op bytes := by
  unfold decodeFrame at h
  split at h
  · exact ⟨_, _, _, framing_two_bytes _ _⟩
  · split at h
    next b0 b1 b2 b3 b4 check =>
      subst check
      exact ⟨_, _, _, framing_five_bytes b0 b1 b2 b3⟩
    next => cases h
  · cases h

/-! ### The round trip -/

/-- The frame of a device command is read as that command: its opcode and operands are decoded as they were encoded. -/
theorem Framing.decodeFrame_of_command {opcode : Word} {operands : List Nat} {op i : Instr} {frame : List Byte}
    (framing : Framing opcode operands op frame) (h : encode i = .command opcode operands) :
    decodeFrame frame = .ok i := by
  have decoded : decodeCommand opcode operands = .ok i := by
    have back := encodedInstructionsDecodeBack i
    rwa [h] at back
  rw [framing.decodeFrame_eq, decoded]
  rfl

/-- Settles O51: a frame that is written or decoded is a framing, which is read back as the device command it carries or as an
instruction that writes as its operation does. -/
theorem writeFramesRoundTrip : Obligations.WriteFramesRoundTrip := by
  refine ⟨fun i frame written => ?_, fun bytes i decoded => ?_⟩
  · obtain ⟨opcode, operands, op, framing, command | rfl⟩ := exists_framing_of_encodeFrame written
    · exact ⟨i, framing.decodeFrame_of_command command, written, fun _ => rfl, fun _ => rfl⟩
    · obtain ⟨sameFrame, sameEffect⟩ := framing.sameWrite_commandOr
      refine ⟨_, framing.decodeFrame_eq, sameFrame.trans written, sameEffect, ?_⟩
      rintro ⟨p, device⟩
      cases framing <;> simp at device
  · obtain ⟨opcode, operands, op, framing⟩ := exists_framing_of_decodeFrame decoded
    obtain rfl := Except.ok.inj (framing.decodeFrame_eq.symm.trans decoded)
    exact framing.sameWrite_commandOr.1.trans framing.encodeFrame_eq

end Sys2Proof.Machine
end

section
/-! O1, O2, O4, O5, O6, O7. The CRC as a function (40_crc.md R60 to R62). Eight bit steps are linear over XOR and lose nothing, so a
byte is absorbed without loss, and `CRC8` separates two words that agree in either byte; the properties of R62 follow. -/

namespace Sys2Proof.Machine

/-! ### Bit steps and bytes -/

/-- The high bit of the register, in numbers (R61). -/
theorem getLsbD_seven_iff (c : Byte) : c.getLsbD 7 = true ↔ 128 ≤ c.toNat := by
  have msb := c.msb_eq_decide
  rw [BitVec.msb_eq_getLsbD_last] at msb
  rw [msb]
  exact decide_eq_true_iff

/-- The 8-bit shift is the doubling with bit 8 dropped (R61). -/
theorem toNat_shiftLeft_one (c : Byte) : (c <<< 1).toNat = (2 * c.toNat) % 256 := by
  rw [BitVec.toNat_shiftLeft, Nat.shiftLeft_eq, Nat.mul_comm]

/-- Settles O1, by the high bit; the mask drops bit 8, which the polynomial does not touch. -/
theorem crcBitShiftsReducesAndMasks : Obligations.CrcBitShiftsReducesAndMasks := by
  refine ⟨fun c => ?_, by decide, by decide, by decide⟩
  have masked : (2 * c.toNat ^^^ 0x31) % 256 = 2 * c.toNat % 256 ^^^ 0x31 := Nat.xor_mod_two_pow (n := 8)
  simp only [crcBit, getLsbD_seven_iff]
  split
  · rw [BitVec.toNat_xor, toNat_shiftLeft_one, masked]
    rfl
  · exact toNat_shiftLeft_one c

theorem crcBits_eq_iterate (n : Nat) (c : Byte) : crcBits n c = crcBit^[n] c := by
  induction n generalizing c with
  | zero => rfl
  | succ n ih => exact ih (crcBit c)

/-- Settles O2: `crcBits` iterates the bit step. -/
theorem crcByteIsXorThenEightBitSteps : Obligations.CrcByteIsXorThenEightBitSteps :=
  ⟨fun c b => crcBits_eq_iterate 8 (c ^^^ b), by decide +kernel⟩

theorem crcBits_zero_right (n : Nat) : crcBits n 0 = 0 := by
  induction n with
  | zero => rfl
  | succ n ih => exact ih

theorem crcBits_eight_eq_zero_iff (b : Byte) : crcBits 8 b = 0#8 ↔ b = 0#8 := by
  constructor
  · exact crcBits_eight_eq_zero b
  · rintro rfl
    exact crcBits_zero_right 8

/-- Eight bit steps lose nothing: by linearity, the XOR of two registers with the same result goes to zero. -/
theorem crcBits_eight_inj {a b : Byte} : crcBits 8 a = crcBits 8 b ↔ a = b := by
  rw [← BitVec.xor_eq_zero_iff, ← crcBits_xor, crcBits_eight_eq_zero_iff, BitVec.xor_eq_zero_iff]

theorem crcByte_left_inj {c c' : Byte} (b : Byte) : crcByte c b = crcByte c' b ↔ c = c' := by
  rw [crcByte, crcByte, crcBits_eight_inj, BitVec.xor_left_inj]

theorem crcByte_right_inj (c : Byte) {b b' : Byte} : crcByte c b = crcByte c b' ↔ b = b' := by
  rw [crcByte, crcByte, crcBits_eight_inj, BitVec.xor_right_inj]

/-! ### R62 -/

/-- Settles O4: the residue is `CRC8` of the word with the byte absorbed, and the bit steps map only zero to zero. -/
theorem residueIsZeroExactlyForTheChecksum : Obligations.ResidueIsZeroExactlyForTheChecksum := by
  intro w b
  calc crcSeq [hiByte w, loByte w, b] = 0
    _ ↔ crcBits 8 (crc8 w ^^^ b) = 0#8 := Iff.rfl
    _ ↔ crc8 w = b := by rw [crcBits_eight_eq_zero_iff, BitVec.xor_eq_zero_iff]
    _ ↔ b = crc8 w := eq_comm

theorem crc8_zero_eq_crcBits : crc8 0 = crcBits 16 0xFF := by decide +kernel

/-- Of three equal terms two cancel. -/
theorem xor_eq_xor_of_offset (a₁ a₂ b₁ b₂ k : Byte) :
    (a₁ ^^^ b₁) ^^^ (a₂ ^^^ b₂) ^^^ k = (a₁ ^^^ a₂ ^^^ k) ^^^ (b₁ ^^^ b₂ ^^^ k) ^^^ k := by
  calc (a₁ ^^^ b₁) ^^^ (a₂ ^^^ b₂) ^^^ k
    _ = (a₁ ^^^ b₁) ^^^ (a₂ ^^^ b₂) ^^^ (k ^^^ (k ^^^ k)) := by rw [BitVec.xor_self, BitVec.xor_zero]
    _ = (a₁ ^^^ a₂ ^^^ k) ^^^ (b₁ ^^^ b₂ ^^^ k) ^^^ k := by ac_rfl

/-- Settles O5: each byte's contribution is linear over XOR, and that of the initial value, which is `CRC8` of zero, stands three
times on the right. -/
theorem crc8IsAffine : Obligations.Crc8IsAffine := by
  refine ⟨fun a b => ?_, by decide +kernel⟩
  rw [crc8_zero_eq_crcBits, crc8_eq_xor a, crc8_eq_xor b, crc8_eq_xor, hiByte_xor, loByte_xor, crcBits_xor, crcBits_xor]
  exact xor_eq_xor_of_offset _ _ _ _ _

theorem crc8_append_right_inj (hi : Byte) {lo lo' : Byte} : crc8 (hi ++ lo) = crc8 (hi ++ lo') ↔ lo = lo' := by
  simp only [crc8, hiByte_append, loByte_append, crcByte_right_inj]

theorem crc8_append_left_inj {hi hi' : Byte} (lo : Byte) : crc8 (hi ++ lo) = crc8 (hi' ++ lo) ↔ hi = hi' := by
  simp only [crc8, hiByte_append, loByte_append, crcByte_left_inj, crcByte_right_inj]

/-- `CRC8` separates two words that agree in one of their bytes. -/
theorem eq_of_crc8_eq_of_byte_eq {v w : Word} (same : crc8 v = crc8 w)
    (agree : hiByte v = hiByte w ∨ loByte v = loByte w) : v = w := by
  rw [← hiByte_append_loByte v, ← hiByte_append_loByte w] at same ⊢
  obtain hi | lo := agree
  · rw [hi, crc8_append_right_inj] at same
    rw [hi, same]
  · rw [lo, crc8_append_left_inj] at same
    rw [lo, same]

theorem crc8_append_bijective (hi : Byte) : Function.Bijective fun lo : Byte => crc8 (hi ++ lo) :=
  Finite.injective_iff_bijective.mp fun _ _ => (crc8_append_right_inj hi).mp

/-- A word with a given `CRC8` is determined by its high byte, which can be any byte. -/
theorem hiByte_bijective_of_crc8 (r : Byte) : Function.Bijective fun v : { v : Word // crc8 v = r } => hiByte v.1 := by
  constructor
  · rintro ⟨v, hv⟩ ⟨w, hw⟩ hi
    exact Subtype.ext (eq_of_crc8_eq_of_byte_eq (hv.trans hw.symm) (.inl hi))
  · intro hi
    obtain ⟨lo, hlo⟩ := (crc8_append_bijective hi).surjective r
    exact ⟨⟨hi ++ lo, hlo⟩, hiByte_append hi lo⟩

/-- Settles O6: `CRC8` separates low bytes, and the inputs of one result are as many as there are high bytes. -/
theorem crc8IsBalanced : Obligations.Crc8IsBalanced := by
  refine ⟨crc8_append_bijective, fun r => ?_⟩
  calc Nat.card { v : Word // crc8 v = r }
    _ = Nat.card Byte := Nat.card_eq_of_bijective _ (hiByte_bijective_of_crc8 r)
    _ = Nat.card (Fin 256) := Nat.card_congr BitVec.equivFin.toEquiv
    _ = 256 := Nat.card_fin 256

/-- A single bit is set in one byte of its word, and the other byte is zero. -/
theorem bit_lies_in_one_byte :
    ∀ i < 16, (hiByte (1#16 <<< i) = 0 ∨ loByte (1#16 <<< i) = 0) ∧ 1#16 <<< i ≠ 0 := by decide

/-- Settles O7: a word and the word with one bit flipped agree in the byte that does not hold the bit. -/
theorem crc8DetectsEverySingleBitFlip : Obligations.Crc8DetectsEverySingleBitFlip := by
  intro v i hi same
  obtain ⟨oneByte, bit⟩ := bit_lies_in_one_byte i hi
  have agree : hiByte (v ^^^ (1#16 <<< i)) = hiByte v ∨ loByte (v ^^^ (1#16 <<< i)) = loByte v :=
    oneByte.imp (fun h => by rw [hiByte_xor, h]; exact BitVec.xor_zero)
      (fun h => by rw [loByte_xor, h]; exact BitVec.xor_zero)
  exact bit (xor_left_eq_self_iff.mp (eq_of_crc8_eq_of_byte_eq same agree))

end Sys2Proof.Machine
end

section
/-! O3. The operation `CRC8` (40_crc.md R59). -/

namespace Sys2Proof.Machine

theorem execCrc8_of_le {value : Nat} (h : value ≤ wordMax) (s : State) :
    exec (.crc8 value) s =
      .next ((s.runCrc (BitVec.ofNat 16 value)).discardCrc.accept (.byte (crc8 (BitVec.ofNat 16 value)))) :=
  congrArg Host.Outcome.next (if_neg (Nat.not_lt.mpr h))

theorem execCrc8_of_lt {value : Nat} (h : wordMax < value) (s : State) :
    exec (.crc8 value) s = .next (s.refuse (.operandRange .value)) :=
  congrArg Host.Outcome.next (if_pos h)

/-- Settles O3: the CRC register is run over the value's bytes, its contents delivered and then discarded. -/
theorem crc8ReturnsTheChecksum : Obligations.Crc8ReturnsTheChecksum := by
  refine ⟨fun r hop => ?_, fun s v => ?_, fun s value wide => execCrc8_of_lt wide s, ?_⟩
  · obtain ⟨op, opcode, param, value, rs, count⟩ := r
    obtain rfl : op = 0b000#3 := hop
    exact (selectCodePicksTheOperation opcode param value rs count).1
  · rw [execCrc8_of_le (toNat_le_wordMax v), BitVec.ofNat_toNat, BitVec.setWidth_eq]
    exact ⟨_, _, rfl⟩
  · decide +kernel

end Sys2Proof.Machine
end

section
/-! O20. A well-formed response with one byte changed (40_crc.md R62; 42_response_decode.md R73). -/

namespace Sys2Proof.Machine

/-! ### The bytes of a response -/

theorem length_response (ws : List Word) : (ws.flatMap responseGroup).length = readLength ws.length := by
  simp [responseGroup, readLength, Nat.mul_comm]

/-- Group `k` of a well-formed response is word `k` with its `CRC8` (R47, R73). -/
theorem group_of_response (ws : List Word) (k : Nat) (hk : k < ws.length) :
    wordAt (ws.flatMap responseGroup) k = ws[k] ∧ checkAt (ws.flatMap responseGroup) k = crc8 ws[k] := by
  induction ws generalizing k with
  | nil => cases hk
  | cons w ws ih =>
    cases k with
    | zero => exact ⟨hiByte_append_loByte w, rfl⟩
    | succ k => exact ih k (Nat.lt_of_succ_lt_succ hk)

/-- A well-formed response passes the `STRICT` comparison in every group. -/
theorem response_checks (ws : List Word) (k : Nat) (hk : k < ws.length) :
    crc8 (wordAt (ws.flatMap responseGroup) k) = checkAt (ws.flatMap responseGroup) k := by
  obtain ⟨word, check⟩ := group_of_response ws k hk
  rw [word, check]

/-! ### One byte changed -/

theorem byteAt_set_self {rx : List Byte} {j : Nat} (hj : j < rx.length) (b : Byte) : byteAt (rx.set j b) j = b := by
  simp [byteAt, hj]

theorem byteAt_set_of_ne {i j : Nat} (h : j ≠ i) (rx : List Byte) (b : Byte) :
    byteAt (rx.set j b) i = byteAt rx i := by
  simp [byteAt, List.getElem?_set_ne h]

/-- A byte of another group leaves a group alone. -/
theorem group_set_of_ne {j k : Nat} (h : j / 3 ≠ k) (rx : List Byte) (b : Byte) :
    wordAt (rx.set j b) k = wordAt rx k ∧ checkAt (rx.set j b) k = checkAt rx k := by
  simp only [wordAt, checkAt]
  rw [byteAt_set_of_ne (by omega), byteAt_set_of_ne (by omega), byteAt_set_of_ne (by omega)]
  exact ⟨rfl, rfl⟩

/-- A group that passes the `STRICT` comparison fails it once any one of its three bytes is changed. -/
theorem check_fails_of_set {rx : List Byte} {j : Nat} {b : Byte} (hj : j < rx.length)
    (good : crc8 (wordAt rx (j / 3)) = checkAt rx (j / 3)) (changed : b ≠ byteAt rx j) :
    crc8 (wordAt (rx.set j b) (j / 3)) ≠ checkAt (rx.set j b) (j / 3) := by
  simp only [wordAt, checkAt] at good ⊢
  obtain first | second | third : j = 3 * (j / 3) ∨ j = 3 * (j / 3) + 1 ∨ j = 3 * (j / 3) + 2 := by omega
  · rw [← first] at good ⊢
    rw [byteAt_set_self hj, byteAt_set_of_ne (by omega), byteAt_set_of_ne (by omega), ← good, Ne, crc8_append_left_inj]
    exact changed
  · rw [← second] at good ⊢
    rw [byteAt_set_self hj, byteAt_set_of_ne (by omega), byteAt_set_of_ne (by omega), ← good, Ne, crc8_append_right_inj]
    exact changed
  · rw [← third] at good ⊢
    rw [byteAt_set_self hj, byteAt_set_of_ne (by omega), byteAt_set_of_ne (by omega), good]
    exact changed.symm

/-- The `STRICT` check of a well-formed response with one byte changed names the group that holds the byte. -/
theorem State.strictCheck_response_set {s : State} {ws : List Word} {j : Nat} {b : Byte}
    (hrx : s.rx = (ws.flatMap responseGroup).set j b) (hj : j < 3 * ws.length)
    (changed : b ≠ byteAt (ws.flatMap responseGroup) j) :
    (State.strictCheck ws.length 0 s).2 = some (j / 3) := by
  have inBuffer : j < (ws.flatMap responseGroup).length := (length_response ws).symm ▸ hj
  rw [State.strictCheck_some, hrx]
  refine ⟨⟨Nat.zero_le _, by omega⟩, ?_, fun k _ below => ?_⟩
  · exact check_fails_of_set inBuffer (response_checks ws _ (by omega)) changed
  · obtain ⟨word, check⟩ := group_set_of_ne (Nat.ne_of_gt below) (ws.flatMap responseGroup) b
    rw [word, check]
    exact response_checks ws k (by omega)

/-! ### The read of it -/

/-- A block of a legal count is read (R70). -/
theorem execReadBlock_of_legal {s : State} {count : Nat} (h1 : 1 ≤ count) (h2 : count ≤ s.config.maxBlockWords) :
    exec (.readBlock count) s = .next (s.readGroups count false packWords) :=
  congrArg Host.Outcome.next (if_neg (by omega))

/-- A given answer of exactly the requested length is what a read delivers (R32). -/
theorem State.readResult_of_full_answer {s : State} {bytes : List Byte} {rest : List ReadAnswer}
    (given : s.readAnswers = .moved bytes :: rest) {n : Nat} (full : bytes.length = n) (rs : Bool) :
    s.readResult n rs = .ok bytes := by
  subst full
  exact (s.readResult_of_answer given _ rs).trans (readResultOf_full bytes)

/-- What a read delivers under `STRICT` for a given answer of exactly the requested length (R73). -/
theorem State.outcomes_of_strict_answer {s : State} {bytes : List Byte} {rest : List ReadAnswer} {count : Nat} {rs : Bool}
    {pack : List Word → OpResult} (strict : s.config.checkPolicy = .strict) (given : s.readAnswers = .moved bytes :: rest)
    (full : bytes.length = readLength count) :
    (s.readGroups count rs pack).outcomes =
      s.outcomes ++ [strictOutcome (State.strictCheck count 0 (s.loadRx bytes)).2 (pack (words bytes count))] := by
  rw [State.readGroups_strict s pack strict (State.readResult_of_full_answer given full rs)]

theorem bit_ne_zero : ∀ bit < 8, 1#8 <<< bit ≠ 0 := by decide

/-- Settles O20: the flipped bit changes one byte, and the check of the bytes received names the group of that byte. -/
theorem strictLocatesEverySingleBitError : Obligations.StrictLocatesEverySingleBitError := by
  intro s ws rest j bit hlen strict hj hbit
  have changed : byteAt (ws.flatMap responseGroup) j ^^^ (1#8 <<< bit) ≠ byteAt (ws.flatMap responseGroup) j :=
    fun same => bit_ne_zero bit hbit (xor_left_eq_self_iff.mp same)
  refine ⟨_, execReadBlock_of_legal (by omega) hlen, (State.outcomes_of_strict_answer ?_ rfl ?_).trans ?_⟩
  · exact strict
  · exact (List.length_set ..).trans (length_response ws)
  · rw [State.strictCheck_response_set rfl hj changed]
    rfl

end Sys2Proof.Machine
end

section
/-! O8, O9. The write operations (41_command_encode.md R65, R66): what they do with operands in range and out of range. -/

namespace Sys2Proof.Machine

theorem State.sendPlain_toNat (s : State) (opcode : Word) :
    s.sendPlain opcode.toNat = s.sendFrame (plainFrame opcode) := by
  rw [State.sendPlain, if_neg (Nat.not_lt.mpr (toNat_le_wordMax opcode)), BitVec.ofNat_toNat, BitVec.setWidth_eq]

theorem State.sendPlain_of_lt {opcode : Nat} (wide : wordMax < opcode) (s : State) :
    s.sendPlain opcode = s.refuse (.operandRange .opcode) :=
  if_pos wide

/-- The check byte is the `CRC8` of the parameter alone (R63, R66). -/
theorem State.sendParam_toNat (s : State) (opcode p : Word) :
    s.sendParam opcode.toNat p.toNat = ((s.runCrc p).sendFrame (paramFrame opcode p (crc8 p))).discardCrc := by
  rw [State.sendParam, if_neg (Nat.not_lt.mpr (toNat_le_wordMax opcode)), if_neg (Nat.not_lt.mpr (toNat_le_wordMax p))]
  simp only [BitVec.ofNat_toNat, BitVec.setWidth_eq, State.runCrc_crc]

/-- The opcode is checked first: the parameter may be anything (R66). -/
theorem State.sendParam_of_opcode_lt {opcode : Nat} (wide : wordMax < opcode) (s : State) (param : Nat) :
    s.sendParam opcode param = s.refuse (.operandRange .opcode) :=
  if_pos wide

theorem State.sendParam_of_param_lt {opcode param : Nat} (h : opcode ≤ wordMax) (wide : wordMax < param) (s : State) :
    s.sendParam opcode param = s.refuse (.operandRange .param) :=
  (if_neg (Nat.not_lt.mpr h)).trans (if_pos wide)

/-- Settles O8: an opcode in range is one write transaction of its frame, any other a refusal. -/
theorem sendPlainWritesTheOpcodeBigEndian : Obligations.SendPlainWritesTheOpcodeBigEndian := by
  refine ⟨fun r hop => ?_, fun s op => ?_, fun s opcode wide => ?_⟩
  · obtain ⟨op, opcode, param, value, rs, count⟩ := r
    obtain rfl : op = 0b001#3 := hop
    obtain ⟨-, selected, -⟩ := selectCodePicksTheOperation opcode param value rs count
    exact selected
  · have sent : exec (.sendPlain op.toNat) s = .next (s.sendFrame (plainFrame op)) :=
      congrArg Host.Outcome.next (s.sendPlain_toNat op)
    rw [sent, State.sendFrame_eq]
    exact ⟨_, _, rfl⟩
  · exact congrArg Host.Outcome.next (State.sendPlain_of_lt wide s)

/-- Settles O9: the Checksum Unit is run over the parameter, which touches nothing the write depends on, and the frame sent in one
transaction; the first operand out of range is refused. -/
theorem sendParamWritesOpcodeParameterAndChecksum : Obligations.SendParamWritesOpcodeParameterAndChecksum := by
  refine ⟨fun r hop => ?_, fun s op p => ?_, fun s opcode param wide => ?_, fun s opcode param inRange wide => ?_⟩
  · obtain ⟨op, opcode, param, value, rs, count⟩ := r
    obtain rfl : op = 0b010#3 := hop
    obtain ⟨-, -, selected, -⟩ := selectCodePicksTheOperation opcode param value rs count
    exact selected
  · have sent : exec (.sendParam op.toNat p.toNat) s =
        .next (((s.runCrc p).sendFrame (paramFrame op p (crc8 p))).discardCrc) :=
      congrArg Host.Outcome.next (s.sendParam_toNat op p)
    rw [sent, State.sendFrame_eq, State.runCrc_eq]
    exact ⟨_, _, _, rfl⟩
  · exact congrArg Host.Outcome.next (State.sendParam_of_opcode_lt wide s param)
  · exact congrArg Host.Outcome.next (State.sendParam_of_param_lt inRange wide s)

end Sys2Proof.Machine
end

section
/-! O13 to O19, O21. The read operations (42_response_decode.md R69 to R74): what each makes of a failed read, of the bytes of a
successful one under either policy, and of a transport answer that is given. -/

namespace Sys2Proof.Machine

/-! ### One read in each case -/

/-- A word is read with either value of `rs` (R69). -/
theorem execReadWord_of_legal {rs : Nat} (h : rs ≤ 1) (s : State) :
    exec (.readWord rs) s = .next (s.readGroups 1 (rs == 1) packWord) :=
  congrArg Host.Outcome.next (if_neg (Nat.not_lt.mpr h))

/-- Settles O15: either operation is one read of groups, and that read fails. -/
theorem failedReadsDeliverNoWords : Obligations.FailedReadsDeliverNoWords := by
  refine ⟨fun s rs h failed => ?_, fun s count h1 h2 failed => ?_⟩
  · rw [execReadWord_of_legal h, State.readGroups_fail (count := 1) s packWord failed, ← Bool.or_assoc]
    exact ⟨_, _, rfl⟩
  · rw [execReadBlock_of_legal h1 h2, State.readGroups_fail s packWords failed, ← Bool.or_assoc]
    exact ⟨_, _, rfl⟩

/-- Settles O13: nothing is compared, and the one word of the three bytes is the first two. -/
theorem readWordLenientReturnsTheWord : Obligations.ReadWordLenientReturnsTheWord := by
  intro s rs b0 b1 b2 h lenient received
  rw [execReadWord_of_legal h, State.readGroups_lenient (count := 1) s packWord lenient received, words_one,
    ← Bool.or_assoc]
  exact ⟨_, _, rfl⟩

/-- Settles O16: nothing is compared, and the words are taken at their offsets. -/
theorem readBlockLenientReturnsTheWords : Obligations.ReadBlockLenientReturnsTheWords := by
  intro s count bytes h1 h2 lenient received
  rw [execReadBlock_of_legal h1 h2, State.readGroups_lenient s packWords lenient received, ← Bool.or_assoc]
  exact ⟨_, _, rfl⟩

/-! ### The `STRICT` verdict -/

/-- Every group passes: the operation's result is delivered (R73). -/
theorem State.strictOutcome_of_good {s : State} {count : Nat} (r : OpResult)
    (good : ∀ k, k < count → checkAt s.rx k = crc8 (wordAt s.rx k)) :
    strictOutcome (State.strictCheck count 0 s).2 r = .ok r := by
  rw [(State.strictCheck_none s count 0).mpr fun k _ hk => (good k (by omega)).symm]
  rfl

/-- Group `k` fails and none below it does: the operation fails as a whole with `k` (R73). -/
theorem State.strictOutcome_of_bad {s : State} {count k : Nat} (r : OpResult) (hk : k < count)
    (bad : checkAt s.rx k ≠ crc8 (wordAt s.rx k)) (below : ∀ j, j < k → checkAt s.rx j = crc8 (wordAt s.rx j)) :
    strictOutcome (State.strictCheck count 0 s).2 r = .err (.checksum k) := by
  rw [(State.strictCheck_some s count 0 k).mpr
    ⟨⟨Nat.zero_le k, by omega⟩, bad.symm, fun j _ hj => (below j hj).symm⟩]
  rfl

/-- Settles O14: group 0 is the only one, so that its check byte alone decides. -/
theorem readWordStrictChecksTheWord : Obligations.ReadWordStrictChecksTheWord := by
  intro s rs b0 b1 b2 h strict received
  have verdict : strictOutcome (State.strictCheck 1 0 (s.loadRx [b0, b1, b2])).2 (.word (b0 ++ b1)) =
      if b2 = crc8 (b0 ++ b1) then .ok (.word (b0 ++ b1)) else .err (.checksum 0) := by
    split
    next good =>
      refine State.strictOutcome_of_good _ fun k hk => ?_
      obtain rfl := Nat.lt_one_iff.mp hk
      exact good
    next bad => exact State.strictOutcome_of_bad _ Nat.one_pos bad fun j hj => absurd hj (Nat.not_lt_zero j)
  rw [execReadWord_of_legal h, State.readGroups_strict (count := 1) s packWord strict received, words_one,
    ← Bool.or_assoc, ← verdict]
  exact ⟨_, _, _, rfl⟩

/-- Settles O17: the verdict on the bytes received decides the outcome, and names the lowest group that fails. -/
theorem readBlockStrictNamesTheLowestBadGroup : Obligations.ReadBlockStrictNamesTheLowestBadGroup := by
  intro s count bytes h1 h2 strict received
  rw [execReadBlock_of_legal h1 h2, State.readGroups_strict s packWords strict received, ← Bool.or_assoc]
  refine ⟨_, _, _, _, rfl, fun good => ?_, fun k hk bad below => ?_⟩
  · exact State.strictOutcome_of_good (s := s.loadRx bytes) _ good
  · exact State.strictOutcome_of_bad (s := s.loadRx bytes) _ hk bad below

/-! ### Reads with a given answer -/

theorem byteAt_take {i n : Nat} (h : i < n) (bytes : List Byte) : byteAt (bytes.take n) i = byteAt bytes i := by
  simp only [byteAt, List.getD_eq_getElem?_getD, List.getElem?_take_of_lt h]

/-- The words of a read stand in the bytes it asked for. -/
theorem words_take (bytes : List Byte) (count : Nat) : words (bytes.take (readLength count)) count = words bytes count := by
  refine List.map_congr_left fun k hk => ?_
  have inRange : 3 * k + 1 < readLength count := by
    have below := List.mem_range.mp hk
    simp only [readLength]
    omega
  rw [wordAt, wordAt, byteAt_take (Nat.lt_of_succ_lt inRange), byteAt_take inRange]

/-- Two buffers that agree everywhere but at the check bytes hold the same words (R71). -/
theorem words_congr {a b : List Byte} (agree : ∀ j, j % 3 ≠ 2 → byteAt a j = byteAt b j) (count : Nat) :
    words a count = words b count := by
  refine List.map_congr_left fun k _ => ?_
  rw [wordAt, wordAt, agree (3 * k) (by omega), agree (3 * k + 1) (by omega)]

/-- A well-formed response holds its words. -/
theorem words_response (ws : List Word) : words (ws.flatMap responseGroup) ws.length = ws := by
  refine List.ext_getElem (by simp [words]) fun k _ hk => ?_
  simp only [words, List.getElem_map, List.getElem_range]
  exact (group_of_response ws k hk).1

section
variable {s : State} {bytes : List Byte} {rest : List ReadAnswer} {count : Nat} {rs : Bool} {pack : List Word → OpResult}

/-- What a read reports for a given answer that is too short (R32, R82). -/
theorem State.outcomes_of_short_answer (given : s.readAnswers = .moved bytes :: rest)
    (short : bytes.length < readLength count) :
    (s.readGroups count rs pack).outcomes = s.outcomes ++ [.err (.transport .read (readLength count))] := by
  rw [State.readGroups_fail s pack ((s.readResult_of_answer given _ rs).trans (readResultOf_short short))]

/-- What a read delivers under `LENIENT` for a given answer that is long enough (R72). -/
theorem State.outcomes_of_lenient_answer (lenient : s.config.checkPolicy = .lenient)
    (given : s.readAnswers = .moved bytes :: rest) (enough : ¬ bytes.length < readLength count) :
    (s.readGroups count rs pack).outcomes = s.outcomes ++ [.ok (pack (words bytes count))] := by
  have received : s.readResult (readLength count) rs = .ok (bytes.take (readLength count)) :=
    (s.readResult_of_answer given _ rs).trans (if_neg enough)
  rw [State.readGroups_lenient s pack lenient received, words_take]

/-- A well-formed response decodes to its words, whatever the policy: it has exactly the length of the read, and under `STRICT`
each of its groups passes (R62, R70, R73). -/
theorem State.outcomes_of_response {ws : List Word} (given : s.readAnswers = .moved (ws.flatMap responseGroup) :: rest) :
    (s.readGroups ws.length rs pack).outcomes = s.outcomes ++ [.ok (pack ws)] := by
  cases policy : s.config.checkPolicy with
  | lenient =>
    have enough := Nat.not_lt.mpr (Nat.le_of_eq (length_response ws).symm)
    rw [State.outcomes_of_lenient_answer policy given enough, words_response]
  | strict =>
    have passes := State.strictOutcome_of_good (s := s.loadRx (ws.flatMap responseGroup)) (pack ws)
      fun k hk => (response_checks ws k hk).symm
    rw [State.outcomes_of_strict_answer policy given (length_response ws), words_response, passes]

end

/-- Settles O19: a block of as many words as the response holds is read. -/
theorem wellFormedResponsesDecodeToTheirWords : Obligations.WellFormedResponsesDecodeToTheirWords := by
  intro s ws rest h1 h2
  exact ⟨_, execReadBlock_of_legal h1 h2, State.outcomes_of_response rfl⟩

/-! ### Two runs -/

/-- Under `LENIENT`, two reads answered with as many bytes that agree everywhere but at the check bytes deliver the same outcome:
both fail, or both deliver the same words. -/
theorem State.outcomes_lenient_congr {s s' : State} {a b : List Byte} {rest rest' : List ReadAnswer}
    (lenient : s.config.checkPolicy = .lenient) (config : s'.config = s.config) (outcomes : s.outcomes = s'.outcomes)
    (given : s.readAnswers = .moved a :: rest) (given' : s'.readAnswers = .moved b :: rest') (len : a.length = b.length)
    (agree : ∀ j, j % 3 ≠ 2 → byteAt a j = byteAt b j) (count : Nat) (rs : Bool) (pack : List Word → OpResult) :
    (s.readGroups count rs pack).outcomes = (s'.readGroups count rs pack).outcomes := by
  by_cases short : a.length < readLength count
  · rw [State.outcomes_of_short_answer given short, State.outcomes_of_short_answer given' (len ▸ short), outcomes]
  · rw [State.outcomes_of_lenient_answer lenient given short,
      State.outcomes_of_lenient_answer (config ▸ lenient) given' (len ▸ short), words_congr agree, outcomes]

/-- Settles O18: a read is the only effect that sees the answer, and its words leave the check bytes out. -/
theorem lenientOutcomesIgnoreCheckBytes : Obligations.LenientOutcomesIgnoreCheckBytes := by
  intro s t t' i a b rest lenient len agree ht ht'
  have related : EffectsRelated (fun u u' => u.outcomes = u'.outcomes)
      { s with readAnswers := .moved a :: rest } { s with readAnswers := .moved b :: rest } :=
    { config := rfl
      refused := fun _ => rfl
      checksum := fun _ _ => rfl
      plain := fun _ => rfl
      param := fun _ _ => rfl
      read := State.outcomes_lenient_congr lenient rfl rfl rfl rfl len agree }
  obtain ⟨u, hu, same⟩ := related.exec_follows ht
  obtain rfl := Host.Outcome.next.inj (ht'.symm.trans hu)
  exact same

/-- A read that succeeds delivers one word for each group, and another packing of them into a result leaves the same state but for
that result. -/
theorem State.readGroups_repack {s : State} {count : Nat} {rs : Bool} {pack : List Word → OpResult} {r : OpResult}
    (succeeded : (s.readGroups count rs pack).outcomes = s.outcomes ++ [.ok r]) (pack' : List Word → OpResult) :
    ∃ ws, ws.length = count ∧ pack ws = r ∧
      s.readGroups count rs pack' = { s.readGroups count rs pack with outcomes := s.outcomes ++ [.ok (pack' ws)] } := by
  cases hr : s.readResult (readLength count) rs with
  | fail =>
    rw [State.readGroups_fail s pack hr] at succeeded
    simp at succeeded
  | ok bytes =>
    refine ⟨words bytes count, by simp [words], ?_⟩
    cases policy : s.config.checkPolicy with
    | lenient =>
      rw [State.readGroups_lenient s pack policy hr] at succeeded ⊢
      rw [State.readGroups_lenient s pack' policy hr]
      exact ⟨by simpa using succeeded, rfl⟩
    | strict =>
      rw [State.readGroups_strict s pack policy hr] at succeeded ⊢
      rw [State.readGroups_strict s pack' policy hr]
      cases verdict : (State.strictCheck count 0 (s.loadRx bytes)).2 with
      | some k => simp [verdict, strictOutcome] at succeeded
      | none =>
        rw [verdict] at succeeded
        exact ⟨by simpa [strictOutcome] using succeeded, rfl⟩

/-- Settles O21: the two operations are one read of one group, which they pack differently. -/
theorem blockOfOneDecodesLikeAWord : Obligations.BlockOfOneDecodesLikeAWord := by
  intro s t w h ht succeeded
  obtain rfl := Host.Outcome.next.inj ((execReadWord_of_legal (Nat.zero_le 1) s).symm.trans ht)
  obtain ⟨ws, one, packed, repacked⟩ := State.readGroups_repack succeeded packWords
  obtain ⟨w', rfl⟩ := List.length_eq_one_iff.mp one
  obtain rfl : w' = w := OpResult.word.inj packed
  exact (execReadBlock_of_legal (Nat.le_refl 1) h).trans (congrArg Host.Outcome.next repacked)

end Sys2Proof.Machine
end

section
/-! O11, O12. The device command set (43_device_commands.md R75 to R80): a device command is the write operation of its frame class
with its opcode, so that what R65 and R66 say of the write operations is said of it. -/

namespace Sys2Proof.Machine

/-- Settles O11: each of the five sends the word that its two bytes form, and a word is written as its bytes. -/
theorem plainDeviceCommandsWriteTheirOpcode : Obligations.PlainDeviceCommandsWriteTheirOpcode := by
  intro s p hp
  have expansion : exec p.1 s = exec (.sendPlain (p.2.1 ++ p.2.2).toNat) s := by
    obtain ⟨expansions, -⟩ := pseudoInstructionsAreTheirExpansions
    obtain ⟨dataReadyQuery, readMeasurements, startCont, stopCont, -, factoryReset⟩ := expansions s
    simp only [List.mem_cons, List.not_mem_nil, or_false] at hp
    obtain rfl | rfl | rfl | rfl | rfl := hp
    · exact dataReadyQuery
    · exact readMeasurements
    · exact startCont
    · exact stopCont
    · exact factoryReset
  obtain ⟨-, writes, -⟩ := sendPlainWritesTheOpcodeBigEndian
  have written := writes s (p.2.1 ++ p.2.2)
  rw [BitVec.extractLsb'_append_eq_left, BitVec.extractLsb'_append_eq_right] at written
  rwa [expansion]

/-- Settles O12: the command is `SEND_PARAM` with an opcode in range, so that only its parameter can be refused. -/
theorem calibrateWritesTheParameterAndItsChecksum : Obligations.CalibrateWritesTheParameterAndItsChecksum := by
  have expansion (param : Nat) (s : State) : exec (.calibrate param) s = exec (.sendParam 0x362F param) s := by
    obtain ⟨expansions, -⟩ := pseudoInstructionsAreTheirExpansions
    obtain ⟨-, -, -, -, calibrate, -⟩ := expansions s
    exact calibrate param
  obtain ⟨-, writes, -, refuses⟩ := sendParamWritesOpcodeParameterAndChecksum
  refine ⟨fun s p => ?_, fun s param wide => ?_⟩
  · rw [expansion]
    exact writes s opCalibrate p
  · rw [expansion]
    exact refuses s 0x362F param (by decide) wide

end Sys2Proof.Machine
end

section
/-! O24 to O28, O29. The outcomes (60_exceptions.md R82 to R85, R87). `Delivers` says once, of every outcome an instruction can end
in, what stands behind it; the statements about refusals and errors read it off. -/

namespace Sys2Proof.Machine

/-! ### Refusals -/

/-- An instruction that writes a frame has passed the checks of R87, whatever the configuration. -/
theorem wellFormed_of_encodeFrame {i : Instr} {frame : List Byte} (written : encodeFrame i = some frame)
    (c : Configuration) : i.WellFormed c := by
  cases i with
  | crc8 value => cases written
  | sendPlain opcode => exact if_pos (le_of_plainFrameOf written)
  | sendParam opcode param =>
    obtain ⟨hopcode, hparam⟩ := le_of_paramFrameOf written
    exact (if_pos hopcode).trans (if_pos hparam)
  | readWord rs => cases written
  | readBlock count => cases written
  | reservedOp5 => cases written
  | reservedOp6 => cases written
  | reservedOp7 => cases written
  | dataReadyQuery => rfl
  | readMeasurements => rfl
  | startCont => rfl
  | stopCont => rfl
  | calibrate param => exact if_pos (le_of_paramFrameOf written).2
  | factoryReset => rfl

/-- Every effect but a refusal is that of a well-formed instruction. -/
theorem Effect.refused_or_wellFormed {i : Instr} {s t : State} (effect : Effect i s t) :
    (∃ r, i.check s.config = some r ∧ t = s.refuse r) ∨ i.WellFormed s.config := by
  cases effect with
  | refused r h => exact .inl ⟨r, h, rfl⟩
  | checksum v h =>
    subst h
    exact .inr (if_pos (toNat_le_wordMax v))
  | plain opcode written => exact .inr (wellFormed_of_encodeFrame written _)
  | param opcode p written => exact .inr (wellFormed_of_encodeFrame written _)
  | readWord rs h hi =>
    subst hi
    exact .inr (if_pos h)
  | readBlock count h1 h2 hi =>
    subst hi
    exact .inr (if_pos ⟨h1, h2⟩)

/-- Settles O24: an instruction that fails its checks has no effect but the refusal for the reason they name. -/
theorem refusedRequestsChangeNoState : Obligations.RefusedRequestsChangeNoState := by
  intro i s r failed
  obtain ⟨t, ht, effect⟩ := exec_effect i s
  obtain ⟨r', failed', rfl⟩ | wellFormed := effect.refused_or_wellFormed
  · obtain rfl := Option.some.inj (failed.symm.trans failed')
    exact ht
  · exact nomatch failed.symm.trans wellFormed

/-! ### What stands behind an outcome -/

/-- The instruction is a read of so many groups (R69, R70). -/
inductive ReadsGroups : Instr → Nat → Prop where
  | word (rs : Nat) : ReadsGroups (.readWord rs) 1
  | block (count : Nat) : ReadsGroups (.readBlock count) count

/-- The outcomes that an instruction, run from `s` to `t`, can deliver, each with what stands behind it (R82, R83, R84, R87). -/
inductive Delivers (i : Instr) (s t : State) : OpOutcome → Prop where
  | ok (r : OpResult) : Delivers i s t (.ok r)
  | refused (r : RefuseReason) (h : i.check s.config = some r) : Delivers i s t (.refused r)
  | writeFailed (frame : List Byte) (written : encodeFrame i = some frame)
      (recorded : t.hist = s.hist ++ [.wr s.config.devAddr frame .fail]) :
      Delivers i s t (.err (.transport .write frame.length))
  | readFailed (count : Nat) (rs : Bool) (reads : ReadsGroups i count)
      (recorded : t.hist = s.hist ++ [.rd s.config.devAddr (readLength count) rs .fail]) :
      Delivers i s t (.err (.transport .read (readLength count)))
  | badGroup (count k : Nat) (rs : Bool) (bytes : List Byte) (reads : ReadsGroups i count) (hk : k < count)
      (strict : s.config.checkPolicy = .strict)
      (recorded : t.hist = s.hist ++ [.rd s.config.devAddr (readLength count) rs (.ok bytes)]) :
      Delivers i s t (.err (.checksum k))

/-- A write delivers what its one recorded transaction gave. -/
theorem Delivers.of_write {i : Instr} {s t : State} {frame : List Byte} {r : WriteResult}
    (written : encodeFrame i = some frame) (recorded : t.hist = s.hist ++ [.wr s.config.devAddr frame r]) :
    Delivers i s t (writeOutcome frame.length r) := by
  cases r with
  | ok => exact .ok _
  | fail => exact .writeFailed frame written recorded

/-- A read delivers the failure of its one transaction, its words, or under `STRICT` a group among those read. -/
theorem Delivers.of_read {i : Instr} {count : Nat} (reads : ReadsGroups i count) (s : State) (rs : Bool)
    (pack : List Word → OpResult) :
    ∃ o, (s.readGroups count rs pack).outcomes = s.outcomes ++ [o] ∧ Delivers i s (s.readGroups count rs pack) o := by
  cases hr : s.readResult (readLength count) rs with
  | fail =>
    rw [State.readGroups_fail s pack hr]
    exact ⟨_, rfl, .readFailed count rs reads rfl⟩
  | ok bytes =>
    cases policy : s.config.checkPolicy with
    | lenient =>
      rw [State.readGroups_lenient s pack policy hr]
      exact ⟨_, rfl, .ok _⟩
    | strict =>
      rw [State.readGroups_strict s pack policy hr]
      refine ⟨_, rfl, ?_⟩
      cases verdict : (State.strictCheck count 0 (s.loadRx bytes)).2 with
      | none => exact .ok _
      | some k =>
        obtain ⟨⟨-, hk⟩, -⟩ := (State.strictCheck_some _ _ _ _).mp verdict
        exact .badGroup count k rs bytes reads (by omega) policy rfl

/-- Every effect delivers exactly one outcome. -/
theorem Effect.delivers {i : Instr} {s t : State} (effect : Effect i s t) :
    ∃ o, t.outcomes = s.outcomes ++ [o] ∧ Delivers i s t o := by
  cases effect with
  | refused r h => exact ⟨_, rfl, .refused r h⟩
  | checksum v h => exact ⟨_, rfl, .ok _⟩
  | plain opcode written => exact ⟨_, rfl, .of_write written rfl⟩
  | param opcode p written => exact ⟨_, rfl, .of_write written rfl⟩
  | readWord rs h hi =>
    subst hi
    exact Delivers.of_read (.word rs) s _ _
  | readBlock count h1 h2 hi =>
    subst hi
    exact Delivers.of_read (.block count) s _ _

/-- What stands behind a given outcome of a given run. -/
theorem delivers_of_exec {i : Instr} {s t : State} {o : OpOutcome} (h : exec i s = .next t)
    (delivered : t.outcomes = s.outcomes ++ [o]) : Delivers i s t o := by
  obtain ⟨o', delivered', delivers⟩ := (effect_of_exec h).delivers
  obtain rfl := List.singleton_inj.mp (List.append_cancel_left (delivered.symm.trans delivered'))
  exact delivers

/-! ### The statements -/

/-- Settles O26: every instruction has an effect, and every effect delivers one outcome. -/
theorem everyOperationReturnsExactlyOneOutcome : Obligations.EveryOperationReturnsExactlyOneOutcome := by
  intro i s
  obtain ⟨t, ht, effect⟩ := exec_effect i s
  obtain ⟨o, delivered, -⟩ := effect.delivers
  exact ⟨t, o, ht, delivered⟩

/-- Settles O25: behind a refusal stands a check that failed. -/
theorem wellFormedRequestsAreNeverRefused : Obligations.WellFormedRequestsAreNeverRefused := by
  intro i s t r wellFormed h delivered
  cases delivers_of_exec h delivered with
  | refused r failed => exact nomatch failed.symm.trans wellFormed

/-- Settles O27: behind a transport error stands a write of its frame or a read of its groups, recorded as failed; `CRC8` is
neither. -/
theorem transportErrorsRecordTheFailedTransaction : Obligations.TransportErrorsRecordTheFailedTransaction := by
  intro i s t dir n h delivered
  cases delivers_of_exec h delivered with
  | writeFailed frame written recorded =>
    refine ⟨?_, .inl ⟨rfl, frame, rfl, recorded⟩⟩
    rintro v rfl
    cases written
  | readFailed count rs reads recorded =>
    refine ⟨?_, .inr ⟨rfl, rs, recorded⟩⟩
    rintro v rfl
    cases reads

/-- Settles O28: behind a checksum error stands a successful read, checked under `STRICT`, with a bad group among those read. -/
theorem checksumErrorsOnlyUnderStrictAfterASuccessfulRead :
    Obligations.ChecksumErrorsOnlyUnderStrictAfterASuccessfulRead := by
  intro i s t k h delivered
  cases delivers_of_exec h delivered with
  | badGroup count k rs bytes reads hk strict recorded =>
    refine ⟨strict, ?_, _, rs, bytes, recorded⟩
    cases reads with
    | word rs => exact .inl ⟨rs, rfl, Nat.lt_one_iff.mp hk⟩
    | block => exact .inr ⟨count, rfl, hk⟩

/-- Settles O29: each kind of outcome is one arm of the numbering. -/
theorem outcomeCodesAreNumberedZeroToFive : Obligations.OutcomeCodesAreNumberedZeroToFive :=
  ⟨fun _ => rfl, fun _ _ => rfl, fun _ => rfl, rfl, fun _ => rfl, rfl⟩

end Sys2Proof.Machine
end

section
/-! O43, O46. The completion of a step (60_exceptions.md R88; 70_reset_and_hazards.md R110) and the power cycle (R98, R100). -/

namespace Sys2Proof.Machine

/-- Only a device command can fail to decode: every select code picks an instruction (R43, R53). -/
theorem exists_command_of_decode_error {e : Encoded} {why : DecodeError} (h : decode e = .error why) :
    ∃ opcode operands, e = .command opcode operands := by
  cases e with
  | request r => cases h
  | command opcode operands => exact ⟨opcode, operands, rfl⟩

/-- An opcode outside the table is named as such, whatever operands come with it (R51). -/
theorem decodeCommand_unlisted {opcode : Word}
    (unlisted : opcode ∉ [0xE4B8#16, 0xEC05#16, 0x21B1#16, 0x3F86#16, 0x362F#16, 0x3632#16]) (operands : List Nat) :
    decodeCommand opcode operands = .error (.unlistedOpcode opcode) := by
  simp only [List.mem_cons, List.not_mem_nil, or_false, not_or] at unlisted
  obtain ⟨h1, h2, h3, h4, h5, h6⟩ := unlisted
  exact (if_neg h1).trans <| (if_neg h2).trans <| (if_neg h3).trans <| (if_neg h4).trans <| (if_neg h5).trans (if_neg h6)

/-- A step refuses, by the decoder's reason, what does not decode (log 14). -/
theorem step_of_decode_error {s : State} {e : Encoded} {rest : List HostAction} {why : DecodeError}
    (hp : s.pending = .submit e :: rest) (hd : decode e = .error why) : step s = .refused (.undecodable why) := by
  simp only [step, State.takeAction_of_pending hp, hd]

/-- Settles O43, by the cases of a step: every instruction has a next state, and what decodes to none is a device command. -/
theorem stepsAlwaysComplete : Obligations.StepsAlwaysComplete := by
  refine ⟨fun s => ?_, fun s opcode operands rest hp unlisted => ?_⟩
  · obtain ⟨-, h⟩ | ⟨rest, -, h⟩ | ⟨rest, -, h⟩ | ⟨e, i, rest, -, -, h⟩ | ⟨e, why, rest, hp, hd, h⟩ := step_cases s
    · exact .inl ⟨_, h⟩
    · exact .inl ⟨_, h⟩
    · exact .inl ⟨_, h⟩
    · obtain ⟨t, ht, -⟩ := exec_effect i { s with pending := rest }
      exact .inl ⟨t, h.trans ht⟩
    · obtain ⟨opcode, operands, rfl⟩ := exists_command_of_decode_error hd
      exact .inr ⟨opcode, operands, rest, why, hp, hd, h⟩
  · exact step_of_decode_error hp (decodeCommand_unlisted unlisted operands)

/-- Settles O46: the step takes the action and starts the block again, with free values in its registers. -/
theorem powerCycleIsAReset : Obligations.PowerCycleIsAReset := by
  intro s rest hp
  have cycled : step s = .next (State.powerCycle { s with pending := rest }) := by
    simp only [step, State.takeAction_of_pending hp]
  exact ⟨_, _, _, _, cycled⟩

end Sys2Proof.Machine
end

section
/-! O30 to O32, O38, O41, O45. Reset, `WAIT` and the hazard rules (70_reset_and_hazards.md R99, R102 to R106): what a read and a
write make of `hazard`, each said once in the Booleans of `Machine/Flags.lean`, then the rules' own cases. -/

namespace Sys2Proof.Machine

/-! ### A read -/

/-- A read is judged by R103 and R105 alone, under both policies and however the transport answers. -/
theorem State.readGroups_hazard (s : State) (count : Nat) (rs : Bool) (pack : List Word → OpResult) :
    (s.readGroups count rs pack).hazard =
      (s.hazard || (endsInWriteWithoutWait s.hist || noCommandPending s.hist)) := by
  obtain ⟨crc, rx, outcome, fresh, everything⟩ := State.readGroups_uniform s.config s.fresh count rs pack _
  rw [everything s rfl rfl rfl]
  rfl

/-- Either read operation, with its operand in range, is one read of groups. -/
theorem exec_hazard_of_legal_read {s : State} {i : Instr}
    (legal : (∃ rs, i = .readWord rs ∧ rs ≤ 1) ∨
      ∃ count, i = .readBlock count ∧ 1 ≤ count ∧ count ≤ s.config.maxBlockWords) :
    ∃ t, exec i s = .next t ∧
      t.hazard = (s.hazard || (endsInWriteWithoutWait s.hist || noCommandPending s.hist)) := by
  obtain ⟨rs, rfl, h⟩ | ⟨count, rfl, h1, h2⟩ := legal
  · exact ⟨_, execReadWord_of_legal h s, s.readGroups_hazard ..⟩
  · exact ⟨_, execReadBlock_of_legal h1 h2, s.readGroups_hazard ..⟩

/-- Settles O30: with no `Wait` the history ends in the write; with one or more, the read keeps R103 and R105 together. -/
theorem readHazardFollowsTheCommandDelay : Obligations.ReadHazardFollowsTheCommandDelay := by
  intro s i h addr frame legal
  obtain ⟨t, ht, hazard⟩ := exec_hazard_of_legal_read legal
  refine ⟨fun hist => ⟨t, ht, ?_⟩, fun j hist => ⟨t, ht, ?_⟩⟩
  · have unwaited : endsInWriteWithoutWait s.hist = true := by
      rw [hist, ← List.append_nil (h ++ _)]
      exact endsInWriteWithoutWait_append_waits h addr frame 0
    rw [hazard, unwaited, Bool.true_or, Bool.or_true]
  · obtain ⟨waited, commanded⟩ := (commandedAndWaited_iff s.hist).mp ⟨h, addr, frame, j, hist⟩
    rw [hazard, waited, commanded, Bool.or_false, Bool.or_false]

/-- R105 ignores the `Wait` events after the latest transaction. -/
@[simp] theorem noCommandPending_append_waits (h : List Event) (j : Nat) :
    noCommandPending (h ++ List.replicate j .wait) = noCommandPending h := by
  induction j with
  | zero => rw [List.replicate_zero, List.append_nil]
  | succ j ih => rw [List.replicate_succ', ← List.append_assoc, noCommandPending_append_wait, ih]

/-- Settles O32: in none of the three cases is a command pending. -/
theorem readWithoutCommandSetsHazard : Obligations.ReadWithoutCommandSetsHazard := by
  intro s i legal uncommanded
  obtain ⟨t, ht, hazard⟩ := exec_hazard_of_legal_read legal
  have nonePending : noCommandPending s.hist = true := by
    obtain ⟨j, hist⟩ | ⟨h, addr, n, rs, result, j, hist⟩ | ⟨h, addr, frame, j, hist⟩ := uncommanded
    · exact hist ▸ noCommandPending_append_waits [] j
    · rw [hist, noCommandPending_append_waits]
      simp [noCommandPending, isTransaction]
    · rw [hist, noCommandPending_append_waits]
      simp [noCommandPending, isTransaction]
  exact ⟨t, ht, by rw [hazard, nonePending, Bool.or_true, Bool.or_true]⟩

/-! ### A write -/

/-- A write is judged by R104 alone, whether it succeeds or fails; an instruction that writes a frame has no other effect. -/
theorem Effect.hazard_of_write {i : Instr} {s t : State} {frame : List Byte} (effect : Effect i s t)
    (written : encodeFrame i = some frame) : t.hazard = (s.hazard || sequenceOpen s.hist) := by
  cases effect with
  | refused r failed => exact nomatch failed.symm.trans (wellFormed_of_encodeFrame written s.config)
  | checksum v h =>
    subst h
    cases written
  | plain opcode h => rfl
  | param opcode p h => rfl
  | readWord rs h hi =>
    subst hi
    cases written
  | readBlock count h1 h2 hi =>
    subst hi
    cases written

/-- Settles O31: the fold over the history, by which a write is judged, computes the rule's open sequence. -/
theorem interleavedWriteSetsHazard : Obligations.InterleavedWriteSetsHazard := by
  intro s i frame written
  obtain ⟨t, ht, effect⟩ := exec_effect i s
  have hazard := effect.hazard_of_write written
  refine ⟨t, ht, fun isOpen => ?_, fun closed => ?_⟩
  · rw [hazard, (sequenceOpen_iff s.hist).mpr isOpen, Bool.or_true]
  · rw [← sequenceOpen_iff, Bool.not_eq_true] at closed
    rw [hazard, closed, Bool.or_false]

/-! ### `WAIT` -/

/-- `WAIT` breaks no obligation, so that appending its event leaves `hazard` too (R102). -/
theorem State.wait_appends (s : State) : s.wait = { s with hist := s.hist ++ [.wait] } := by
  have kept : (s.hazard || breaksObligation s.hist .wait) = s.hazard := Bool.or_false _
  simp only [State.wait_eq, State.record, kept]

/-- Settles O45: the step takes the action and appends its event. -/
theorem waitAppendsOneEventAndNothingElse : Obligations.WaitAppendsOneEventAndNothingElse := by
  intro s rest hp
  have waited : step s = .next (State.wait { s with pending := rest }) := by
    simp only [step, State.takeAction_of_pending hp]
  rw [waited, State.wait_appends]

/-! ### Reset -/

/-- Settles O38: no hazard is recorded, and no obligation was broken in the empty history. -/
theorem resetHazardIsExact : Obligations.ResetHazardIsExact :=
  fun _ => iff_of_true rfl cleanHistory_nil

/-- Settles O41: each field of the reset state is written out in its definition. -/
theorem resetClearsHistoryAndHazard : Obligations.ResetClearsHistoryAndHazard :=
  ⟨fun _ => ⟨rfl, rfl, rfl⟩, rfl, rfl, rfl, rfl⟩

end Sys2Proof.Machine
end

section
/-! O47. The step of an idle host (10_state.md section 1; log 2). -/

namespace Sys2Proof.Machine

theorem State.takeAction_of_no_pending {s : State} (idle : s.pending = []) : s.takeAction = none := by
  simp only [State.takeAction, idle]

/-- Settles O47: the host issues no action, and the step leaves the state as it found it. -/
theorem noRequestChangesNothing : Obligations.NoRequestChangesNothing := by
  intro s idle
  simp only [step, State.takeAction_of_no_pending idle]

end Sys2Proof.Machine
end
